-- ==== Sys2Proof/Word.lean ====
section
/-! DEFINITION. The words the manual counts in bits: identities, masks and the 24-bit impairment field. -/

namespace Sys2Proof

/-- One byte of a frame, and every field the manual gives one byte. -/
abbrev Byte := BitVec 8

/-- A node id (Table 10-7: 4 bytes, unsigned); 0 names no node. -/
abbrev NodeId := BitVec 32

/-- A set of slots 0 to 95: bit `i` is set when slot `i` is in the set.
The order of the bits on the wire is that of R182 and is made in `Machine/Frames.lean`. -/
abbrev SlotMask := BitVec 96

/-- The 24-bit field that carries an impairment figure (R28) or a raw noise report. -/
abbrev IfField := BitVec 24

/-- A set of degrees 0 to 7: bit `i` is set when degree `i` is in the set. -/
abbrev DegreeMask := BitVec 8

/-- Agent number and port number, which are the same. -/
abbrev AgentId := Fin 4

/-- Degree number and supervisory-channel port number, which are the same. -/
abbrev DegreeNo := Fin 8

/-- Index of a circuit entry (R79). -/
abbrev CircuitNo := Fin 64

/-- Number of a response slot (R156). -/
abbrev SlotNo := Fin 8

end Sys2Proof
end

