-- ==== Sys2Proof/Config.lean ====
section
/-! DEFINITION. What is fixed for every 8140: the capacities and times the manual states, and the values it leaves open. -/

namespace Sys2Proof.Config

/-- Link table capacity (R5). -/
def linkCapacity : Nat := 1024
/-- Node indexes 1 to 255 are given to REMOTE nodes (R1). -/
def remoteNodeCapacity : Nat := 255
/-- Pending requests per port (R52). -/
def pendingCapacity : Nat := 4
/-- Commands per command queue, and the credits granted at ACCEPT (R150, R153). -/
def commandCredits : Nat := 8
/-- Notices per notice queue (R166). -/
def noticeCapacity : Nat := 16
/-- Settled ids, and labels of a frontier (R56, R57, R60). -/
def searchCapacity : Nat := 256
/-- Largest body length of an agent-link frame (R183). -/
def maxBody : Nat := 3200
/-- Largest body length of a supervisory-channel frame (R188). -/
def maxAnswerBody : Nat := 84
/-- Length of the configuration memory image (R189). -/
def imageLength : Nat := 244

/-- Grace of a STALE record, in ms (R15, R18). -/
def graceMs : Nat := 60000
/-- Probe timeout, in ms (R106). -/
def probeMs : Nat := 250
/-- Keepalive interval, in ms (R135). -/
def keepaliveMs : Nat := 1000
/-- Carrier settle, in ms (R134). -/
def settleMs : Nat := 1000
/-- Misses that lose a degree (R137). -/
def missLimit : Nat := 3
/-- Length of a run of error indications that moves a degree (R138, R139). -/
def runLimit : Nat := 5
/-- Largest delay in microseconds (R40, R45). -/
def maxDelay : Nat := 16777215

/-- FREE VALUE. Byte `i` of the prefix of a command body that is shorter than its 4-byte prefix.
R186 has such a command answered with "the reference and the command kind as received", and nothing
was received there: the manual states no value (DESIGN CHOICE, log entry 8). -/
opaque missingPrefixByte : List Byte → Nat → Byte

end Sys2Proof.Config
end

