-- ==== Sys2Proof/Syntax.lean ====
section
/-! DEFINITION. The commands of the block: one constructor of `Instr` for each row of spec/opcode_table.json,
with the operands that row's rules name. Enumerated codes of agent commands stay raw bytes here,
because R186 leaves an unlisted code to the owner of the command. -/

namespace Sys2Proof

/-- A link key (Table 1-2): from-node id, to-node id, interface. -/
structure LinkKey where
  fromNode : NodeId
  toNode   : NodeId
  iface    : Byte
  deriving DecidableEq, Repr

/-- The parameters of ADVERTISE LINK (Table 10-8). -/
structure AdvertiseParams where
  key        : LinkKey
  state      : Byte
  cost       : BitVec 16
  delay      : BitVec 24
  noise      : IfField
  srlg       : List (BitVec 16)
  capability : SlotMask
  occupied   : SlotMask
  lifetime   : BitVec 16
  deriving DecidableEq, Repr

/-- One exclusion entry of PATH REQUEST as carried: the kinds of Table 3-1, or an unlisted kind code. -/
inductive ExclusionEntry where
  | node (id : NodeId)
  | link (key : LinkKey)
  | srlg (id : BitVec 16)
  | unknown (kind : Byte)
  deriving DecidableEq, Repr

/-- The parameters of PATH REQUEST as carried (Table 10-9). -/
structure PathParams where
  tag            : BitVec 16
  source         : NodeId
  destination    : NodeId
  cls            : Byte
  constraintKind : Byte
  channel        : Byte
  direction      : Byte
  policy         : Byte
  maxHops        : Byte
  delayBound     : BitVec 24
  allowDegraded  : Bool
  diversity      : Byte
  hold           : Byte
  holdTime       : BitVec 16
  arithmetic     : Byte
  exclusions     : List ExclusionEntry
  deriving DecidableEq, Repr

/-- The configured fields of one degree as carried, in the order of Table 5-1. -/
structure DegreeParams where
  enable      : Bool
  profile     : Byte
  cost        : BitVec 16
  capability  : SlotMask
  srlg        : List (BitVec 16)
  tries       : Byte
  lossDeclare : Byte
  holdDown    : BitVec 16
  deriving DecidableEq, Repr

/-- One filter entry (R165). -/
structure FilterEntry where
  pattern : BitVec 32
  mask    : BitVec 32
  deriving DecidableEq, Repr

/-- The sixteen commands of Table 7-3 with their parameters. -/
inductive AgentCommand where
  | advertiseLink (p : AdvertiseParams)
  | withdrawLink (key : LinkKey)
  | queryLink (key : LinkKey)
  | listLinks (start : BitVec 16)
  | setLocal (id : NodeId)
  | pathRequest (p : PathParams)
  | pathCancel (tag : BitVec 16)
  | setClass (cls : Byte) (threshold : IfField)
  | commit (index sequence : Byte)
  | release (index sequence : Byte)
  | queryCircuit (index : Byte)
  | setDegree (degree : Byte) (p : DegreeParams)
  | discover (degree : Byte)
  | queryDegree (degree : Byte)
  | loadCounter (degree counter value : Byte)
  | setFilter (entries : List FilterEntry) (mask : DegreeMask)
  deriving DecidableEq, Repr

/-- One in-line site of a chain answer (R106). -/
structure SiteRecord where
  id    : BitVec 32
  span  : BitVec 16
  delay : BitVec 24
  raw   : IfField
  alarm : Bool
  deriving DecidableEq, Repr

/-- The contents of an IDENT answer (R106). -/
structure IdentContents where
  node       : NodeId
  iface      : Byte
  capability : SlotMask
  occupied   : SlotMask
  siteCount  : Byte
  overflow   : Bool
  deriving DecidableEq, Repr

/-- A carrier indication (R130). -/
inductive Carrier where
  | absent
  | present
  deriving DecidableEq, Repr

/-- The commands of the block. The sixteen agent commands are sent by agent `a` on its port with the
reference `ref`; the other rows are frames, link and line events, expiries and steps of the part. -/
inductive Instr where
  | advertiseLink (a : AgentId) (ref : BitVec 16) (p : AdvertiseParams)
  | withdrawLink (a : AgentId) (ref : BitVec 16) (key : LinkKey)
  | queryLink (a : AgentId) (ref : BitVec 16) (key : LinkKey)
  | listLinks (a : AgentId) (ref : BitVec 16) (start : BitVec 16)
  | setLocal (a : AgentId) (ref : BitVec 16) (id : NodeId)
  | pathRequest (a : AgentId) (ref : BitVec 16) (p : PathParams)
  | pathCancel (a : AgentId) (ref : BitVec 16) (tag : BitVec 16)
  | setClass (a : AgentId) (ref : BitVec 16) (cls : Byte) (threshold : IfField)
  | commit (a : AgentId) (ref : BitVec 16) (index sequence : Byte)
  | release (a : AgentId) (ref : BitVec 16) (index sequence : Byte)
  | queryCircuit (a : AgentId) (ref : BitVec 16) (index : Byte)
  | setDegree (a : AgentId) (ref : BitVec 16) (degree : Byte) (p : DegreeParams)
  | discover (a : AgentId) (ref : BitVec 16) (degree : Byte)
  | queryDegree (a : AgentId) (ref : BitVec 16) (degree : Byte)
  | loadCounter (a : AgentId) (ref : BitVec 16) (degree counter value : Byte)
  | setFilter (a : AgentId) (ref : BitVec 16) (entries : List FilterEntry) (mask : DegreeMask)
  /-- INIT frame from agent `a`: grid code, response credit, degree subscription mask (Table 10-4). -/
  | init (a : AgentId) (grid credit : Byte) (mask : DegreeMask)
  /-- CREDIT frame from agent `a` (Table 10-5). -/
  | credit (a : AgentId) (count : Byte)
  /-- COMMAND frame from agent `a` with this body, malformed or not (R153). -/
  | command (a : AgentId) (body : List Byte)
  /-- A frame as delivered on port `a`, header and check value included (R152, R183). -/
  | frameCheckFailure (a : AgentId) (frame : List Byte)
  | take (a : AgentId)
  /-- The link of port `a` accepts one frame (R159). -/
  | send (a : AgentId)
  | linkUp (a : AgentId)
  | linkDown (a : AgentId)
  | requestArbiter
  | settlingStep
  | holdExpiry (c : CircuitNo)
  | lifetimeExpiry (link : Fin 1024)
  | graceExpiry (link : Fin 1024)
  /-- The supervisory-channel port of degree `d` accepts the probe it holds (R106). -/
  | probeSend (d : DegreeNo)
  | identAnswer (d : DegreeNo) (x : IdentContents)
  | chainAnswer (d : DegreeNo) (batch : Byte) (sites : List SiteRecord) (more : Bool)
  | keepaliveAnswer (d : DegreeNo) (error : Bool) (occupied : SlotMask)
  /-- A frame as delivered on supervisory-channel port `d` (R107, R188). -/
  | erroredAnswer (d : DegreeNo) (frame : List Byte)
  | probeTimeout (d : DegreeNo)
  | keepaliveTimeout (d : DegreeNo)
  | keepaliveIntervalExpiry (d : DegreeNo)
  /-- Port `d` reports this carrier indication (R130). -/
  | carrierChange (d : DegreeNo) (x : Carrier)
  | lossDeclareExpiry (d : DegreeNo)
  | settleExpiry (d : DegreeNo)
  | holdDownExpiry (d : DegreeNo)
  | powerOn
  /-- End of the configuration memory read: the bytes acknowledged from address 0 on (R189). -/
  | configurationApplied (image : List Byte)
  | warmResetAssertion
  | warmResetRelease
  deriving DecidableEq, Repr

end Sys2Proof
end

