-- ==== Sys2Proof/Machine/State.lean ====
section
/-! DEFINITION. The state of the 8140 as plain data: every table, record, queue, timer and line the manual gives it,
the queue of commands that wait, and the state at power-on (`State.reset`). -/

namespace Sys2Proof.Machine

/-- The load state (R176, R181); RESET remembers the state it was entered from. -/
inductive LoadState where
  | loading
  | ready
  | resetFromLoading
  | resetFromReady
  deriving DecidableEq, Repr

/-! ## Topology store -/

/-- Kind of a node (Table 1-1). -/
inductive NodeKind where
  | localNode
  | remote
  deriving DecidableEq, Repr

/-- One node record (R1, Table 1-1). -/
structure NodeRecord where
  id    : NodeId
  index : Nat
  kind  : NodeKind
  refs  : Nat
  deriving DecidableEq, Repr

/-- Who may change a link record (Table 1-2). -/
inductive Owner where
  | agent (a : AgentId)
  | discovery
  deriving DecidableEq, Repr

/-- Service state of a link (Table 1-2). -/
inductive LinkState where
  | up
  | degraded
  | holddown
  | down
  | stale
  deriving DecidableEq, Repr

/-- One entry of a channel map (R22). -/
inductive SlotState where
  | free
  | foreign
  | held (c : CircuitNo)
  | lit (c : CircuitNo)
  deriving DecidableEq, Repr

/-- One channel map: the state of slots 0 to 95. -/
abbrev ChannelMap := Vector SlotState 96

/-- One link record (R5, Table 1-2). Lifetime and grace are in ms. -/
structure LinkRecord where
  key             : LinkKey
  index           : Nat
  owner           : Owner
  state           : LinkState
  cost            : BitVec 16
  delay           : BitVec 24
  noise           : IfField
  srlg            : List (BitVec 16)
  capability      : SlotMask
  channels        : ChannelMap
  lifetime        : Option Nat
  grace           : Option Nat
  removalDeferred : Bool
  illegalNoise    : Bool
  discoveredPair  : Bool
  deriving DecidableEq, Repr

/-! ## Path engine -/

/-- One entry of the class table (R47). -/
structure ClassEntry where
  threshold : IfField
  writer    : Option AgentId
  deriving DecidableEq, Repr

/-- The grid of a port (R150). -/
inductive Grid where
  | g50
  | g100
  deriving DecidableEq, Repr

inductive Direction where
  | lowFirst
  | highFirst
  deriving DecidableEq, Repr

inductive Policy where
  | firstFit
  | bestFit
  deriving DecidableEq, Repr

inductive Diversity where
  | none
  | pair
  deriving DecidableEq, Repr

inductive HoldOption where
  | none
  | hold
  deriving DecidableEq, Repr

inductive ArithMode where
  | tolerant
  | strict
  deriving DecidableEq, Repr

/-- One entry of an admitted exclusion list (Table 3-1). -/
inductive Exclusion where
  | node (id : NodeId)
  | link (key : LinkKey)
  | srlg (id : BitVec 16)
  deriving DecidableEq, Repr

/-- One request record (R50): every field of Table 3-1 as clamped, the captures of admission, the two
arithmetic holds (R46), the retry count (R68), the captured generation (R54), and the reference and
response slot its one response goes to. -/
structure Request where
  ref           : BitVec 16
  slot          : SlotNo
  tag           : BitVec 16
  source        : NodeId
  destination   : NodeId
  cls           : Fin 8
  threshold     : IfField
  width         : Nat
  channel       : Option Nat
  direction     : Direction
  policy        : Policy
  maxHops       : Nat
  delayBound    : Nat
  allowDegraded : Bool
  exclusions    : List Exclusion
  diversity     : Diversity
  hold          : HoldOption
  holdTime      : Nat
  arithmetic    : ArithMode
  overflow      : Bool
  illegalSkipped : Bool
  retries       : Nat
  captured      : Option (BitVec 32)
  deriving DecidableEq, Repr

/-- One link of a path, as read by the search (R61). -/
structure PathLink where
  index : Nat
  key   : LinkKey
  srlg  : List (BitVec 16)
  deriving DecidableEq, Repr

/-- The predecessor of a label (R56). -/
structure Predecessor where
  node  : NodeId
  index : Nat
  link  : PathLink
  deriving DecidableEq, Repr

/-- One label (R56). -/
structure Label where
  node  : NodeId
  index : Nat
  cost  : Nat
  hops  : Nat
  noise : IfField
  delay : Nat
  pred  : Option Predecessor
  deriving DecidableEq, Repr

/-- One path found by a search, with its candidate and totals (R61). -/
structure FoundPath where
  candidate : Nat
  links     : List PathLink
  cost      : Nat
  hops      : Nat
  noise     : IfField
  delay     : Nat
  deriving DecidableEq, Repr

/-- The search stages of Table 3-2; ADMIT, CLAIM and REPORT pass within one event. -/
inductive Stage where
  | working
  | protection
  deriving DecidableEq, Repr

/-- The RUNNING request with its search. `remaining` are the candidates after the present one in the
search under way; `protecting` is the working path of a protection search and `workRemaining` the
working candidates to which FIRST_FIT returns; `ranking` is R67's candidate ranking (in the second
pass: the entries not yet taken); `firstWorking` is the working path of R66. -/
structure Running where
  port          : AgentId
  req           : Request
  stage         : Stage
  candidate     : Nat
  remaining     : List Nat
  frontier      : List Label
  settled       : List Label
  protecting    : Option FoundPath
  workRemaining : List Nat
  ranking       : List FoundPath
  firstWorking  : Option FoundPath
  deriving DecidableEq, Repr

/-! ## Circuit table -/

inductive CircuitState where
  | held
  | lit
  deriving DecidableEq, Repr

inductive Role where
  | working
  | protection
  deriving DecidableEq, Repr

/-- One link of a circuit's path (Table 4-1). -/
structure PathHop where
  index : Nat
  key   : LinkKey
  deriving DecidableEq, Repr

/-- One circuit entry (R79, Table 4-1). Its index is its place in the table, and its sequence is that index's
number in `State.sequences` (DESIGN CHOICE, log entry 21). The hold is in ms. -/
structure Circuit where
  state     : CircuitState
  owner     : AgentId
  tag       : BitVec 16
  firstSlot : Nat
  width     : Nat
  path      : List PathHop
  partner   : Option CircuitNo
  role      : Role
  hold      : Option Nat
  affected  : Bool
  deriving DecidableEq, Repr

/-- A handle (R80). -/
structure Handle where
  index    : CircuitNo
  sequence : BitVec 8
  deriving DecidableEq, Repr

/-! ## Degree controllers -/

inductive Profile where
  | native
  | linear24
  | perkm
  deriving DecidableEq, Repr

/-- The configured fields of a degree record (Table 5-1); times in steps of 100 ms and in seconds. -/
structure DegreeConfig where
  enable      : Bool
  profile     : Profile
  cost        : BitVec 16
  capability  : SlotMask
  srlg        : List (BitVec 16)
  tries       : Nat
  lossDeclare : Nat
  holdDown    : Nat
  deriving DecidableEq, Repr

/-- The eleven states of Table 5-2. -/
inductive DegreeState where
  | disabled
  | idle
  | probing
  | collecting
  | up
  | degraded
  | holddown
  | lost
  | exhausted
  | fault
  | mismatch
  deriving DecidableEq, Repr

/-- The probes of R106. -/
inductive Probe where
  | ident
  | chain (batch : Nat)
  | keepalive
  deriving DecidableEq, Repr

/-- The two keys of an installed pair (R104). -/
structure InstalledPair where
  outgoing : LinkKey
  ret      : LinkKey
  deriving DecidableEq, Repr

/-- The computed data of a pair (R115), without the far-end occupied mask. -/
structure PairData where
  state        : LinkState
  cost         : BitVec 16
  delay        : BitVec 24
  noise        : IfField
  illegalNoise : Bool
  srlg         : List (BitVec 16)
  capability   : SlotMask
  deriving DecidableEq, Repr

/-- One degree record (R103, Table 5-1) with the items of Degree Supervision. `probeTimer` is absent while
the outstanding probe is held unsent (R106); `lineCarrier` is what the port reports, `carrier` what the
controller has recorded (R147). Timers are in ms. -/
structure Degree where
  config         : DegreeConfig
  triesRemaining : Nat
  state          : DegreeState
  outstanding    : Option Probe
  probeTimer     : Option Nat
  farNode        : NodeId
  farIface       : Byte
  farCapability  : SlotMask
  farOccupied    : SlotMask
  siteCount      : Nat
  chain          : List SiteRecord
  installedPair  : Option InstalledPair
  pendingInstall : Option PairData
  recovery       : Bool
  missCount      : Nat
  errorRun       : Nat
  probeTimeouts  : BitVec 8
  erroredAnswers : BitVec 8
  carrierDrops   : BitVec 8
  overflowHold   : Bool
  underflowHold  : Bool
  illegalHold    : Bool
  overlap        : Bool
  carrier        : Carrier
  lineCarrier    : Carrier
  lossTimer      : Option Nat
  settleTimer    : Option Nat
  intervalTimer  : Option Nat
  holdDownTimer  : Option Nat
  deriving DecidableEq, Repr

/-! ## Notices and responses -/

inductive LinkReason where
  | created
  | updated
  | state
  | stale
  | removed
  | takeover
  | foreign
  deriving DecidableEq, Repr

inductive DegreeReason where
  | config
  | discover
  | start
  | warmReset
  | collect
  | tries
  | chainOverflow
  | chainCount
  | farEnd
  | tableFull
  | farEndChanged
  | installed
  | carrierLoss
  | keepaliveLoss
  | carrierRestore
  | holddownEnd
  | remoteDegraded
  | remoteClear
  deriving DecidableEq, Repr

inductive Indication where
  | affected
  | restored
  deriving DecidableEq, Repr

/-- The three counters of a degree (R143). -/
inductive CounterName where
  | probeTimeouts
  | erroredAnswers
  | carrierDrops
  deriving DecidableEq, Repr

/-- The notices of Table 8-2. -/
inductive Notice where
  | linkChanged (key : LinkKey) (state : LinkState) (reason : LinkReason)
  | classChanged (cls : Fin 8) (threshold : IfField) (writer : AgentId)
  | holdExpired (handle : Handle) (tag : BitVec 16) (role : Role) (firstSlot width : Nat) (partner : Option Handle)
  | circuitAffected (handle : Handle) (tag : BitVec 16) (role : Role) (indication : Indication)
      (key : LinkKey) (state : LinkState)
  | degreeEvent (degree : DegreeNo) (previous new : DegreeState) (reason : DegreeReason)
  | carrier (degree : DegreeNo) (indication : Carrier)
  | counterWrap (degree : DegreeNo) (counter : CounterName)
  deriving DecidableEq, Repr

/-- A notice in a queue with its lost-count field (R167) and the moment it joined (R159). -/
structure QueuedNotice where
  notice : Notice
  lost   : Nat
  moment : Nat
  deriving DecidableEq, Repr

/-- The completion codes of Table 8-3. -/
inductive Completion where
  | ok
  | badField
  | notReady
  | notOwner
  | noEntry
  | tableFull
  | inUse
  | busy
  | duplicateTag
  | noPath
  | noDiverse
  | conflict
  | holdRefused
  | cancelled
  | arithAbort
  deriving DecidableEq, Repr

/-- One path of a result (R70, Table 10-10): channel in the port's grid, link keys, totals. -/
structure PathBlock where
  channel : Nat
  keys    : List LinkKey
  cost    : Nat
  delay   : Nat
  noise   : IfField
  hops    : Nat
  deriving DecidableEq, Repr

/-- A path result (R70). -/
structure PathResult where
  tag            : BitVec 16
  staleTopology  : Bool
  overflow       : Bool
  illegalSkipped : Bool
  retries        : Nat
  working        : Option PathBlock
  protection     : Option PathBlock
  handles        : List Handle
  deriving DecidableEq, Repr

/-- What a response carries after its prefix. Each record is the record as it stood when the query was taken. -/
inductive ResponseBody where
  | empty
  | overlap (flag : Bool)
  | link (r : LinkRecord) (generation : BitVec 32)
  | links (entries : List (Nat × LinkKey)) (next : Nat) (generation : BitVec 32)
  | path (r : PathResult)
  | circuit (handle : Handle) (c : Circuit) (partner : Option Handle)
  | sequence (n : BitVec 8)
  | degree (n : DegreeNo) (d : Degree)
  deriving DecidableEq, Repr

/-- A complete response (R156). -/
structure Response where
  ref  : BitVec 16
  kind : Byte
  code : Completion
  body : ResponseBody
  deriving DecidableEq, Repr

/-! ## Agent ports -/

inductive PortState where
  | down
  | init
  | active
  deriving DecidableEq, Repr

/-- Response credit (Table 7-1). -/
inductive ResponseCredit where
  | absent
  | limited (n : Nat)
  | unlimited
  deriving DecidableEq, Repr

/-- A command in a command queue, with the judgement of R186 on its body (DEDUCED, log entry 4). -/
inductive QueuedCommand where
  | malformed (ref : BitVec 16) (kind : Byte)
  | wellFormed (ref : BitVec 16) (c : AgentCommand)
  deriving DecidableEq, Repr

/-- One response slot (R156); a filled slot is dated for R159. -/
inductive Slot where
  | free
  | reserved (ref : BitVec 16) (kind : Byte)
  | filled (r : Response) (moment : Nat)
  deriving DecidableEq, Repr

/-- The indication of an INIT the part sends, with its grid byte (Table 10-3). -/
inductive InitKind where
  | opening
  | accept (grid : Grid)
  | reject (code : Byte)
  deriving DecidableEq, Repr

/-- A link frame placed for sending (R159). An INIT carries the protocol error count as it stood. -/
inductive LinkFrame where
  | init (kind : InitKind) (errors : Nat)
  | credit
  deriving DecidableEq, Repr

/-- One port record (R148, Table 7-1) with the notice unit's items for the port (R165, Table 8-1). `moment`
dates what the port has to send; `sent` is the model's own record of the frames sent, oldest first. -/
structure Port where
  state          : PortState
  linkUp         : Bool
  grid           : Option Grid
  credits        : Nat
  queue          : List QueuedCommand
  slots          : Vector Slot 8
  responseCredit : ResponseCredit
  linkFrames     : List LinkFrame
  errors         : Nat
  notices        : List QueuedNotice
  lost           : Nat
  filter         : List FilterEntry
  subscription   : DegreeMask
  moment         : Nat
  sent           : List (List Byte)
  deriving DecidableEq, Repr

/-! ## The machine -/

/-- The whole part, and the model's own fields (DESIGN CHOICE, log entry 16): `pending`, the commands that wait to be taken, first
in, first out, and `probesSent`, the probes sent by each degree. -/
structure State where
  loadState    : LoadState
  warmAsserted : Bool
  localId      : NodeId
  nodes        : List NodeRecord
  links        : List LinkRecord
  generation   : BitVec 32
  classes      : Vector ClassEntry 8
  lastServed   : AgentId
  queued       : Vector (List Request) 4
  running      : Option Running
  circuits     : Vector (Option Circuit) 64
  sequences    : Vector (BitVec 8) 64
  degrees      : Vector Degree 8
  ports        : Vector Port 4
  portEnable   : BitVec 4
  probesSent   : Vector (List (List Byte)) 8
  pending      : List Instr
  deriving DecidableEq, Repr

/-- The block has no fault: the manual answers every bad frame, command or answer by counting it or by a
completion code (R107, R152, R174). Nothing raises one. -/
inductive Fault
  deriving DecidableEq, Repr

/-- Why `exec` gives no state. -/
inductive Refusal where
  /-- Raised by `exec` for a command that has no meaning yet; safe. No arm of this model raises it. -/
  | notModelled (mnemonic : String)
  deriving DecidableEq, Repr

/-- The largest figure, MAXIF = (4095, 15), as its field (section 10.2). -/
def maxIf : IfField := 0x03FFFF

/-- The defaults of R103, with enable no. -/
def DegreeConfig.default : DegreeConfig :=
  { enable := false, profile := .native, cost := 100, capability := BitVec.allOnes 96, srlg := [], tries := 3,
    lossDeclare := 20, holdDown := 10 }

/-- A degree record at power-on, before the configuration is applied (R103, R147; DESIGN CHOICE, log entries 7 and 15). -/
def Degree.powerOn : Degree :=
  { config := .default, triesRemaining := 3, state := .disabled, outstanding := none, probeTimer := none, farNode := 0,
    farIface := 0, farCapability := 0, farOccupied := 0, siteCount := 0, chain := [], installedPair := none,
    pendingInstall := none, recovery := false, missCount := 0, errorRun := 0, probeTimeouts := 0, erroredAnswers := 0,
    carrierDrops := 0, overflowHold := false, underflowHold := false, illegalHold := false, overlap := false,
    carrier := .absent, lineCarrier := .absent, lossTimer := none, settleTimer := none, intervalTimer := none,
    holdDownTimer := none }

/-- A port record at power-on (R148, R165). -/
def Port.powerOn : Port :=
  { state := .down, linkUp := false, grid := none, credits := 0, queue := [], slots := Vector.replicate 8 .free,
    responseCredit := .absent, linkFrames := [], errors := 0, notices := [], lost := 0, filter := [], subscription := 0,
    moment := 0, sent := [] }

/-- The part at power-on (R27, R77, R102, R103, R148, R165, R176), LOADING, with no command waiting
(DESIGN CHOICE, log entries 1, 7 and 15, for what these rules do not give). -/
def State.reset : State :=
  { loadState := .loading, warmAsserted := false, localId := 0, nodes := [], links := [], generation := 0,
    classes := Vector.replicate 8 ⟨maxIf, none⟩, lastServed := 3, queued := Vector.replicate 4 [], running := none,
    circuits := Vector.replicate 64 none, sequences := Vector.replicate 64 0, degrees := Vector.replicate 8 .powerOn,
    ports := Vector.replicate 4 .powerOn, portEnable := 0, probesSent := Vector.replicate 8 [], pending := [] }

end Sys2Proof.Machine
end

