-- ==== Sys2Proof/Machine/Figures.lean ====
section
/-! DEFINITION. Impairment arithmetic (chapter 2): classing, ADD, NORMALIZE, MULT and COMPARE on the 24-bit field, the
conversion of site reports and the fold. Mantissas and exponent codes (E + 48) are natural numbers here;
a result is computed exactly and rounded once. -/

namespace Sys2Proof.Machine

/-- The exceptions of one call (R31). -/
structure Exceptions where
  overflow  : Bool
  underflow : Bool
  illegal   : Bool
  deriving DecidableEq, Repr

def noExceptions : Exceptions := ⟨false, false, false⟩

/-- The union of two exception sets (R39). -/
def Exceptions.union (a b : Exceptions) : Exceptions :=
  ⟨a.overflow || b.overflow, a.underflow || b.underflow, a.illegal || b.illegal⟩

/-- The mantissa, bits 17 to 6 (Table 10-1). -/
def figMantissa (f : IfField) : Nat := (f.toNat / 64) % 4096

/-- The exponent code E + 48, bits 5 to 0 (Table 10-1). -/
def figCode (f : IfField) : Nat := f.toNat % 64

/-- The six pad bits, bits 23 to 18 (Table 10-1). -/
def figPad (f : IfField) : Nat := f.toNat / 262144

/-- The field of mantissa `m` and exponent code `c` (Table 10-1). -/
def figPack (m c : Nat) : IfField := BitVec.ofNat 24 (m * 64 + c)

/-- The classes of Table 2-1. -/
inductive FigClass where
  | legal (m c : Nat)
  | zero
  | illegal
  deriving DecidableEq, Repr

/-- The class of a field (R28). -/
def figClass (f : IfField) : FigClass :=
  if figPad f ≠ 0 then .illegal
  else if 2048 ≤ figMantissa f then .legal (figMantissa f) (figCode f)
  else if figMantissa f = 0 ∧ figCode f = 0 then .zero
  else .illegal

/-- The field is a legal figure or zero. -/
def figLegal (f : IfField) : Bool := figClass f ≠ .illegal

/-- The ceiling of `n / 2^k` (R30). -/
def ceilShift (n k : Nat) : Nat := (n + (2 ^ k - 1)) / 2 ^ k

/-- The carry rule of R30 on a rounded mantissa and its exponent code. -/
def carryRule (m c : Nat) : Nat × Nat := if m = 4096 then (2048, c + 1) else (m, c)

/-- Steps 3 to 7 of ADD (R32), for `cb ≤ ca`. -/
def addAligned (ma ca mb cb : Nat) : IfField × Exceptions :=
  let s := ma + ceilShift mb (ca - cb)
  let r := if 4096 ≤ s then (ceilShift s 1, ca + 1) else (s, ca)
  if 63 < r.2 then (maxIf, { noExceptions with overflow := true }) else (figPack r.1 r.2, noExceptions)

/-- ADD (R32). -/
def figAdd (a b : IfField) : IfField × Exceptions :=
  match figClass a, figClass b with
  | .illegal, _ => (a, { noExceptions with illegal := true })
  | _, .illegal => (b, { noExceptions with illegal := true })
  | .zero, _ => (b, noExceptions)
  | _, .zero => (a, noExceptions)
  | .legal ma ca, .legal mb cb => if cb ≤ ca then addAligned ma ca mb cb else addAligned mb cb ma ca

/-- NORMALIZE (R33) of `n × 2^-s`, in the uses R33 lists. -/
def figNormalize (n s : Nat) : IfField :=
  if n = 0 then 0
  else
    let k := Nat.log2 n
    if k ≤ 11 then figPack (n * 2 ^ (11 - k)) (k + 48 - s)
    else
      let r := carryRule (ceilShift n (k - 11)) (k + 48 - s)
      figPack r.1 r.2

/-- MULT (R34). The exponent code of the product is `ca + cb - 48`; the test for a code below 0 is made on
the sum, so that nothing is cut off. -/
def figMult (a b : IfField) : IfField × Exceptions :=
  match figClass a, figClass b with
  | .illegal, _ => (a, { noExceptions with illegal := true })
  | _, .illegal => (b, { noExceptions with illegal := true })
  | .zero, _ => (0, noExceptions)
  | _, .zero => (0, noExceptions)
  | .legal ma ca, .legal mb cb =>
    let p := ma * mb
    let r := if 8388608 ≤ p then (ceilShift p 12, ca + cb + 1) else carryRule (ceilShift p 11) (ca + cb)
    if 63 + 48 < r.2 then (maxIf, { noExceptions with overflow := true })
    else if r.2 < 48 then (0, { noExceptions with underflow := true })
    else (figPack r.1 (r.2 - 48), noExceptions)

/-- COMPARE (R35): whether `a ≤ b`; no for an illegal operand. -/
def figCompare (a b : IfField) : Bool :=
  match figClass a, figClass b with
  | .illegal, _ => false
  | _, .illegal => false
  | .zero, _ => true
  | .legal _ _, .zero => false
  | .legal ma ca, .legal mb cb => ca < cb || (ca == cb && ma ≤ mb)

/-- The converted noise of one site under a profile (R36, R37, R38). -/
def convertSite (p : Profile) (x : SiteRecord) : IfField × Exceptions :=
  match p with
  | .native => (x.raw, { noExceptions with illegal := !figLegal x.raw })
  | .linear24 => (figNormalize x.raw.toNat 24, noExceptions)
  | .perkm => figMult x.raw (figNormalize x.span.toNat 4)

/-- One step of the fold of R39: convert the site, ADD it to the running value, gather the exceptions. -/
def foldSite (p : Profile) (acc : IfField × Exceptions) (x : SiteRecord) : IfField × Exceptions :=
  let c := convertSite p x
  let r := figAdd acc.1 c.1
  (r.1, (acc.2.union c.2).union r.2)

/-- The ordered fold of a chain, from the zero figure (R39). -/
def foldNoise (p : Profile) (chain : List SiteRecord) : IfField × Exceptions :=
  chain.foldl (foldSite p) (0, noExceptions)

/-- The exact sum of the span delays (R40). -/
def sumDelay (chain : List SiteRecord) : Nat := (chain.map fun x => x.delay.toNat).sum

/-- The result of a conversion (R39, R40): noise, whether it is illegal, delay, exceptions. -/
structure Conversion where
  noise        : IfField
  illegalNoise : Bool
  delay        : BitVec 24
  exceptions   : Exceptions
  deriving DecidableEq, Repr

/-- The conversion of a complete chain (R39, R40). -/
def convertChain (p : Profile) (chain : List SiteRecord) : Conversion :=
  let f := foldNoise p chain
  let d := sumDelay chain
  { noise := f.1
    illegalNoise := !figLegal f.1
    delay := BitVec.ofNat 24 (min d Config.maxDelay)
    exceptions := { f.2 with overflow := f.2.overflow || decide (Config.maxDelay < d) } }

end Sys2Proof.Machine
end

