-- ==== Sys2Proof/Machine/Ops.lean ====
section
/-! DEFINITION. The shared operations over ports, notices, responses, degrees and timers, that the meanings of the commands
are written over. -/

namespace Sys2Proof.Machine

open Host (Outcome)

/-- What `exec` and `step` answer. -/
abbrev Answered := Outcome State Fault Refusal

/-! ## One home for each record -/

def State.port (s : State) (p : AgentId) : Port := s.ports[p]
def State.setPort (s : State) (p : AgentId) (x : Port) : State := { s with ports := s.ports.set p x }
def State.degree (s : State) (d : DegreeNo) : Degree := s.degrees[d]
def State.setDegree (s : State) (d : DegreeNo) (x : Degree) : State := { s with degrees := s.degrees.set d x }
def State.circuit (s : State) (c : CircuitNo) : Option Circuit := s.circuits[c]
def State.setCircuit (s : State) (c : CircuitNo) (x : Option Circuit) : State :=
  { s with circuits := s.circuits.set c x }
def State.sequence (s : State) (c : CircuitNo) : BitVec 8 := s.sequences[c]
def State.queuedOf (s : State) (p : AgentId) : List Request := s.queued[p]
def State.setQueued (s : State) (p : AgentId) (l : List Request) : State := { s with queued := s.queued.set p l }

/-- The present handle of an index (R80). -/
def State.handle (s : State) (c : CircuitNo) : Handle := ⟨c, s.sequence c⟩

/-- The pending list of a port, oldest first (R52): the RUNNING record, where it is the port's, is always
the oldest, since the arbiter takes the oldest and only one runs (R53). -/
def State.pendingList (s : State) (p : AgentId) : List Request :=
  match s.running with
  | some r => if r.port = p then r.req :: s.queuedOf p else s.queuedOf p
  | none => s.queuedOf p

/-- Every agent, in ascending number. -/
def allAgents : List AgentId := List.finRange 4
/-- Every degree, in ascending number. -/
def allDegrees : List DegreeNo := List.finRange 8
/-- Every circuit index, in ascending order. -/
def allCircuits : List CircuitNo := List.finRange 64

/-- Apply `f` at each element of `l` in order. -/
def forEach {α : Type} (l : List α) (f : α → State → State) (s : State) : State := l.foldl (fun t x => f x t) s

/-! ## Notices (chapter 8) -/

/-- A node id matches a filter entry (R170). -/
def filterHits (e : FilterEntry) (id : NodeId) : Bool := (id &&& e.mask) == (e.pattern &&& e.mask)

/-- Test 2 of R166: the notice passes the port's filter or subscription mask (R170, R171, R172). -/
def Port.wants (x : Port) : Notice → Bool
  | .linkChanged key _ _ => x.filter.isEmpty || x.filter.any fun e => filterHits e key.fromNode || filterHits e key.toNode
  | .degreeEvent d _ _ _ | .carrier d _ | .counterWrap d _ => x.subscription.getLsbD d
  | .classChanged .. | .holdExpired .. | .circuitAffected .. => true

/-- The offer of a notice as one port takes it (R166, R167, R168). -/
def Port.offered (x : Port) (n : Notice) : Port :=
  if x.state ≠ .active then x
  else if !x.wants n then x
  else if Config.noticeCapacity ≤ x.notices.length then { x with lost := min (x.lost + 1) 255 }
  else { x with notices := x.notices ++ [⟨n, x.lost, x.moment⟩], lost := 0, moment := x.moment + 1 }

/-- Offer a notice for one port. -/
def offerTo (p : AgentId) (n : Notice) (s : State) : State := s.setPort p ((s.port p).offered n)

/-- Offer a notice for every port (R166). -/
def offerAll (n : Notice) (s : State) : State := { s with ports := Vector.ofFn fun p => (s.port p).offered n }

/-! ## Responses (chapter 7) -/

/-- Where the answer of a taken command goes: its port, its reserved slot, its reference and kind. -/
structure Ticket where
  port : AgentId
  slot : SlotNo
  ref  : BitVec 16
  kind : Byte
  deriving DecidableEq, Repr

/-- The port with a response placed in a slot; the slot joins the output now (R156, R159). -/
def Port.fill (x : Port) (k : SlotNo) (r : Response) : Port :=
  { x with slots := x.slots.set k (.filled r x.moment), moment := x.moment + 1 }

/-- Place the response of a command in its reserved slot (R156). -/
def answer (t : Ticket) (code : Completion) (body : ResponseBody) (s : State) : State :=
  s.setPort t.port ((s.port t.port).fill t.slot ⟨t.ref, t.kind, code, body⟩)

/-- The lowest-numbered free response slot (R154). -/
def Port.freeSlot (x : Port) : Option SlotNo := (List.finRange 8).find? fun k => x.slots[k] == .free

/-- The protocol error count, saturating (R160). -/
def Port.protocolError (x : Port) : Port := { x with errors := min (x.errors + 1) 65535 }

/-- The command kind codes of Table 10-6. -/
def commandCode : AgentCommand → Byte
  | .advertiseLink _ => 1
  | .withdrawLink _ => 2
  | .queryLink _ => 3
  | .listLinks _ => 4
  | .setLocal _ => 5
  | .pathRequest _ => 6
  | .pathCancel _ => 7
  | .setClass _ _ => 8
  | .commit _ _ => 9
  | .release _ _ => 10
  | .queryCircuit _ => 11
  | .setDegree _ _ => 12
  | .discover _ => 13
  | .queryDegree _ => 14
  | .loadCounter _ _ _ => 15
  | .setFilter _ _ => 16

/-! ## Tables -/

/-- The lowest index among `lo`, `lo + 1`, …, `lo + n - 1` that `used` does not hold. -/
def lowestFree (used : List Nat) (lo : Nat) : Nat → Option Nat
  | 0 => none
  | n + 1 => if lo ∈ used then lowestFree used (lo + 1) n else some lo

/-- A list of SRLG ids that the link and degree rules refuse (R7, R122). -/
def srlgBad (l : List (BitVec 16)) : Bool := 4 < l.length || l.any (· == 0) || !l.Nodup

/-! ## Channel maps (R11, R22) -/

/-- HELD or LIT. -/
def SlotState.used : SlotState → Bool
  | .held _ | .lit _ => true
  | .free | .foreign => false

/-- A record is in use while any slot of its channel map is HELD or LIT (R5). -/
def mapInUse (m : ChannelMap) : Bool := m.toList.any SlotState.used

/-- An occupied mask applied slot by slot (the table of R11). -/
def applyMask (m : ChannelMap) (occupied : SlotMask) : ChannelMap :=
  Vector.ofFn fun i =>
    match m[i] with
    | .free | .foreign => if occupied.getLsbD i then .foreign else .free
    | x => x

/-- Some slot named by the mask is HELD or LIT (R11). -/
def maskOverlaps (m : ChannelMap) (occupied : SlotMask) : Bool :=
  (List.finRange 96).any fun i => occupied.getLsbD i && m[i].used

/-- The two maps have the same set of FOREIGN slots. -/
def sameForeign (a b : ChannelMap) : Bool :=
  (List.finRange 96).all fun i => (a[i] == .foreign) == (b[i] == .foreign)

/-- Write one state into the slot range of a circuit (R82). -/
def writeRange (m : ChannelMap) (first width : Nat) (v : SlotState) : ChannelMap :=
  Vector.ofFn fun i => if first ≤ i ∧ i < first + width then v else m[i]

/-- Every slot of the range is FREE. -/
def rangeFree (m : ChannelMap) (first width : Nat) : Bool :=
  (List.range width).all fun j => m.toList[first + j]? == some .free

/-- Every slot of the range is in the mask. -/
def rangeInMask (m : SlotMask) (first width : Nat) : Bool :=
  (List.range width).all fun j => m.getLsbD (first + j)

/-- UP or DEGRADED (R95). -/
def LinkState.usable : LinkState → Bool
  | .up | .degraded => true
  | .holddown | .down | .stale => false

end Sys2Proof.Machine
end

