-- ==== Sys2Proof/Machine/Store.lean ====
section
/-! DEFINITION. The topology store (chapter 1): nodes, links, the notices and circuit flags that follow a change of a link, the
store's commands, ageing, and the requests of the degree controllers. -/

namespace Sys2Proof.Machine

/-! ## Reads (R6) -/

/-- Node by id. -/
def State.nodeById (s : State) (id : NodeId) : Option NodeRecord := s.nodes.find? fun n => n.id = id

/-- Link by key. -/
def State.linkByKey (s : State) (k : LinkKey) : Option LinkRecord := s.links.find? fun r => r.key = k

/-- Link at an index. -/
def State.linkAt (s : State) (i : Nat) : Option LinkRecord := s.links.find? fun r => r.index = i

/-- Outgoing links of a node id, in ascending index. -/
def State.outgoing (s : State) (id : NodeId) : List (Nat × LinkKey) :=
  (s.links.filter fun r => r.key.fromNode = id).map fun r => (r.index, r.key)

/-! ## Tables in ascending index -/

/-- Put a record at its index, replacing the one there. -/
def putRecord (r : LinkRecord) : List LinkRecord → List LinkRecord
  | [] => [r]
  | x :: xs => if r.index < x.index then r :: x :: xs else if r.index = x.index then r :: xs else x :: putRecord r xs

/-- Put a node at its index, replacing the one there. -/
def putNode (n : NodeRecord) : List NodeRecord → List NodeRecord
  | [] => [n]
  | x :: xs => if n.index < x.index then n :: x :: xs else if n.index = x.index then n :: xs else x :: putNode n xs

def State.putLink (s : State) (r : LinkRecord) : State := { s with links := putRecord r s.links }

/-- The lowest free link index (R5). -/
def State.freeLinkIndex (s : State) : Option Nat := lowestFree (s.links.map (·.index)) 0 Config.linkCapacity

/-- The lowest free node index from 1 to 255 (R2). -/
def State.freeNodeIndex (s : State) : Option Nat := lowestFree (s.nodes.map (·.index)) 1 Config.remoteNodeCapacity

/-- How many node indexes from 1 to 255 are free. -/
def State.freeNodes (s : State) : Nat := Config.remoteNodeCapacity - (s.nodes.filter fun n => n.index ≠ 0).length

/-- The ids of `l` that are not in the node table, each once. -/
def State.unknownNodes (s : State) (l : List NodeId) : List NodeId :=
  (l.filter fun id => (s.nodeById id).isNone).dedup

/-- Raise a node's reference count, creating the node where it is unknown (R2). -/
def raiseNode (id : NodeId) (s : State) : State :=
  match s.nodeById id with
  | some n => { s with nodes := putNode { n with refs := n.refs + 1 } s.nodes }
  | none =>
    match s.freeNodeIndex with
    | some i => { s with nodes := putNode ⟨id, i, .remote, 1⟩ s.nodes }
    | none => s

/-- Lower a node's reference count; a REMOTE node at 0 is removed (R3). -/
def lowerNode (id : NodeId) (s : State) : State :=
  match s.nodeById id with
  | some n =>
    if n.kind = .remote ∧ n.refs ≤ 1 then { s with nodes := s.nodes.filter fun x => x.id ≠ id }
    else { s with nodes := putNode { n with refs := n.refs - 1 } s.nodes }
  | none => s

/-- One more topology change (R23). -/
def bumpGeneration (s : State) : State := { s with generation := s.generation + 1 }

/-! ## Circuits follow the state of their links (R95, R96, R97) -/

/-- Every link of a path is UP or DEGRADED, read at the recorded indexes (R96). -/
def pathUsable (s : State) (path : List PathHop) : Bool :=
  path.all fun h => match s.linkAt h.index with
    | some r => r.state.usable
    | none => false

/-- The CIRCUIT AFFECTED notice of an entry (R97). -/
def affectedNotice (s : State) (c : CircuitNo) (e : Circuit) (i : Indication) (key : LinkKey) (st : LinkState) : Notice :=
  .circuitAffected (s.handle c) e.tag e.role i key st

/-- One entry takes a change of the state of the link at `i` (R95, R96). -/
def circuitFollows (i : Nat) (key : LinkKey) (st : LinkState) (c : CircuitNo) (s : State) : State :=
  match s.circuit c with
  | none => s
  | some e =>
    if !(e.path.any fun h => h.index == i) then s
    else if st.usable then
      if e.affected && pathUsable s e.path then
        offerTo e.owner (affectedNotice s c e .restored key st) (s.setCircuit c (some { e with affected := false }))
      else s
    else if e.affected then s
    else offerTo e.owner (affectedNotice s c e .affected key st) (s.setCircuit c (some { e with affected := true }))

/-- A change of a link's state is passed to the circuit table (R21, R95). -/
def circuitsFollow (i : Nat) (key : LinkKey) (st : LinkState) (s : State) : State :=
  forEach allCircuits (circuitFollows i key st) s

/-! ## Changing a record -/

/-- The reason of R12 for a change of a record that stays, or none where R12 lists no change. -/
def changeReason (old new : LinkRecord) : Option LinkReason :=
  if new.owner ≠ old.owner then some .takeover
  else if new.state = .stale ∧ old.state ≠ .stale then some .stale
  else if new.cost ≠ old.cost ∨ new.delay ≠ old.delay ∨ new.noise ≠ old.noise ∨ new.srlg ≠ old.srlg ∨
      new.capability ≠ old.capability then some .updated
  else if new.state ≠ old.state then some .state
  else if !sameForeign old.channels new.channels then some .foreign
  else none

/-- Write a changed record without moving the generation counter: the LINK CHANGED of R12, then the circuit
flags of a change of state (R97). -/
def changeLinkQuietly (old new : LinkRecord) (s : State) : State :=
  let s1 := s.putLink new
  let s2 := match changeReason old new with
    | some r => offerAll (.linkChanged new.key new.state r) s1
    | none => s1
  if new.state ≠ old.state then circuitsFollow new.index new.key new.state s2 else s2

/-- Write a changed record; the generation counter increases by 1 where R12 lists a change (R9, R15, R20, R21). -/
def changeLink (old new : LinkRecord) (s : State) : State :=
  changeLinkQuietly old new (if (changeReason old new).isSome then bumpGeneration s else s)

/-- Remove a record: index freed, reference counts lowered, counter raised, REMOVED offered (R14, R3). -/
def removeLink (r : LinkRecord) (s : State) : State :=
  let s1 := { s with links := s.links.filter fun x => x.index ≠ r.index }
  let s2 := lowerNode r.key.toNode (lowerNode r.key.fromNode s1)
  offerAll (.linkChanged r.key r.state .removed) (bumpGeneration s2)

/-- Create a record at index `r.index`: nodes, record, counter, CREATED (R2, R8, R20). DESIGN CHOICE (log entry 29): of two unknown
endpoints the from-node is created first, and so takes the lower of the two free node indexes. -/
def createLink (r : LinkRecord) (s : State) : State :=
  let s1 := raiseNode r.key.toNode (raiseNode r.key.fromNode s)
  offerAll (.linkChanged r.key r.state .created) (bumpGeneration (s1.putLink r))

/-- The record at `i` is checked again after the circuit table freed a slot of it (R17). -/
def recheckDeferred (i : Nat) (s : State) : State :=
  match s.linkAt i with
  | some r => if r.removalDeferred && !mapInUse r.channels then removeLink r s else s
  | none => s

/-- The record becomes STALE: lifetime absent, grace started (R15, R18). -/
def staled (r : LinkRecord) : LinkRecord := { r with state := .stale, lifetime := none, grace := some Config.graceMs }

/-! ## Advertisement (R7 to R11) -/

/-- The advertised state, where the code is one of UP, DEGRADED, DOWN (R7, Table 10-7). -/
def advertisedState (c : Byte) : Option LinkState :=
  if c = 1 then some .up else if c = 2 then some .degraded else if c = 4 then some .down else none

/-- The clamped lifetime in seconds (R7). -/
def clampLifetime (n : Nat) : Nat := if n = 0 then 180 else if n < 10 then 10 else if 3600 < n then 3600 else n

/-- The checks of R7 but for the state code. -/
def advertiseBad (p : AdvertiseParams) : Bool :=
  p.key.fromNode == 0 || p.key.toNode == 0 || p.key.fromNode == p.key.toNode || srlgBad p.srlg

/-- A record with the contents of an advertisement (R8, R9): fields, occupied mask by R11, lifetime restarted,
grace absent, removal deferred no. -/
def advertised (p : AdvertiseParams) (st : LinkState) (owner : Owner) (r : LinkRecord) : LinkRecord :=
  { r with
    owner := owner, state := st, cost := p.cost, delay := p.delay, noise := p.noise, srlg := p.srlg
    capability := p.capability, channels := applyMask r.channels p.occupied
    lifetime := some (clampLifetime p.lifetime.toNat * 1000), grace := none
    removalDeferred := if r.state = .stale then false else r.removalDeferred
    illegalNoise := !figLegal p.noise }

/-- A record that holds nothing yet, at an index and under a key. -/
def blankRecord (key : LinkKey) (i : Nat) (owner : Owner) : LinkRecord :=
  { key := key, index := i, owner := owner, state := .down, cost := 0, delay := 0, noise := 0, srlg := [], capability := 0,
    channels := Vector.replicate 96 .free, lifetime := none, grace := none, removalDeferred := false,
    illegalNoise := false, discoveredPair := false }

/-- ADVERTISE LINK as the store takes it (R7 to R11): fields, then ownership, then room. -/
def storeAdvertise (t : Ticket) (p : AdvertiseParams) (s : State) : State :=
  match advertisedState p.state with
  | none => answer t .badField (.overlap false) s
  | some st =>
    if advertiseBad p then answer t .badField (.overlap false) s
    else
      match s.linkByKey p.key with
      | some r =>
        if r.owner = .agent t.port ∨ (r.owner ≠ .discovery ∧ r.state = .stale) then
          answer t .ok (.overlap (maskOverlaps r.channels p.occupied))
            (changeLink r (advertised p st (.agent t.port) r) s)
        else answer t .notOwner (.overlap false) s
      | none =>
        match s.freeLinkIndex with
        | none => answer t .tableFull (.overlap false) s
        | some i =>
          if s.freeNodes < (s.unknownNodes [p.key.fromNode, p.key.toNode]).length then
            answer t .tableFull (.overlap false) s
          else
            answer t .ok (.overlap false)
              (createLink (advertised p st (.agent t.port) (blankRecord p.key i (.agent t.port))) s)

/-- WITHDRAW LINK (R13); its answer follows REMOVED (DESIGN CHOICE, log entry 10). -/
def storeWithdraw (t : Ticket) (key : LinkKey) (s : State) : State :=
  match s.linkByKey key with
  | none => answer t .noEntry .empty s
  | some r =>
    if r.owner ≠ .agent t.port then answer t .notOwner .empty s
    else if mapInUse r.channels then answer t .inUse .empty s
    else answer t .ok .empty (removeLink r s)

/-- QUERY LINK (R24). -/
def storeQuery (t : Ticket) (key : LinkKey) (s : State) : State :=
  match s.linkByKey key with
  | none => answer t .noEntry .empty s
  | some r => answer t .ok (.link r s.generation) s

/-- The entries a LIST LINKS collects from a start index (R25). -/
def listedLinks (s : State) (start : Nat) : List (Nat × LinkKey) :=
  ((s.links.filter fun r => start ≤ r.index).take 8).map fun r => (r.index, r.key)

/-- The next index of a LIST LINKS answer (R25). -/
def nextIndex (l : List (Nat × LinkKey)) : Nat :=
  if l.length = 8 then (l.getLast?.map fun x => x.1 + 1).getD 1024 else 1024

/-- LIST LINKS (R25). -/
def storeList (t : Ticket) (start : BitVec 16) (s : State) : State :=
  if 1024 ≤ start.toNat then answer t .badField .empty s
  else
    let l := listedLinks s start.toNat
    answer t .ok (.links l (nextIndex l) s.generation) s

/-- The node table with `id` made the local node (R4): created with count 0, or moved to index 0. -/
def placeLocal (id : NodeId) (s : State) : State :=
  let refs := ((s.nodeById id).map (·.refs)).getD 0
  { s with localId := id, nodes := putNode ⟨id, 0, .localNode, refs⟩ (s.nodes.filter fun n => n.id ≠ id) }

/-- SET LOCAL (R4). -/
def storeSetLocal (t : Ticket) (id : NodeId) (s : State) : State :=
  if s.localId ≠ 0 ∨ id = 0 then answer t .badField .empty s
  else answer t .ok .empty (placeLocal id s)

/-! ## Ageing (R15 to R18) -/

/-- Expiry of a lifetime (R15). -/
def lifetimeExpired (i : Nat) (s : State) : State :=
  match s.linkAt i with
  | some r => if r.lifetime.isSome ∧ r.state ≠ .stale then changeLink r (staled r) s else s
  | none => s

/-- Expiry of a grace (R16). -/
def graceExpired (i : Nat) (s : State) : State :=
  match s.linkAt i with
  | some r =>
    if r.grace.isSome then
      if mapInUse r.channels then s.putLink { r with grace := none, removalDeferred := true }
      else removeLink { r with grace := none } s
    else s
  | none => s

/-- The record at `i` becomes STALE if agent `a` owns it and it is not STALE (R18). -/
def staleOwned (a : AgentId) (i : Nat) (s : State) : State :=
  match s.linkAt i with
  | some r => if r.owner = .agent a ∧ r.state ≠ .stale then changeLink r (staled r) s else s
  | none => s

/-- The port of agent `a` left ACTIVE: its records become STALE, in ascending link index (R18). -/
def staleAgent (a : AgentId) (s : State) : State := forEach (s.links.map (·.index)) (staleOwned a) s

/-! ## Requests of the degree controllers (R19 to R21) -/

/-- The room an install needs (R19). -/
def installRoom (keys : List LinkKey) (s : State) : Bool :=
  (keys.filter fun k => (s.linkByKey k).isNone).length ≤ Config.linkCapacity - s.links.length &&
  (s.unknownNodes (keys.flatMap fun k => [k.fromNode, k.toNode])).length ≤ s.freeNodes

/-- A record with the data of an install (R20). -/
def installed (x : PairData) (occupied : SlotMask) (r : LinkRecord) : LinkRecord :=
  { r with
    owner := .discovery, state := x.state, cost := x.cost, delay := x.delay, noise := x.noise, srlg := x.srlg
    capability := x.capability, channels := applyMask r.channels occupied, lifetime := none, grace := none
    removalDeferred := false, illegalNoise := x.illegalNoise, discoveredPair := true }

/-- One link of a pair is installed (R20); a takeover always moves the counter (DEDUCED, log entry 11). -/
def installLink (key : LinkKey) (x : PairData) (occupied : SlotMask) (s : State) : State :=
  match s.linkByKey key with
  | some r => changeLink r (installed x occupied r) s
  | none =>
    match s.freeLinkIndex with
    | some i => createLink (installed x occupied (blankRecord key i .discovery)) s
    | none => s

/-- Some slot that the mask names is HELD or LIT on the record under the key (R11, R19). -/
def overlapAt (key : LinkKey) (occupied : SlotMask) (s : State) : Bool :=
  match s.linkByKey key with
  | some r => maskOverlaps r.channels occupied
  | none => false

/-- An install of a pair: the overlap report and the store after it, or none where room is lacking (R19). -/
def installPair (p : InstalledPair) (x : PairData) (occupied : SlotMask) (s : State) : Option (Bool × State) :=
  if installRoom [p.outgoing, p.ret] s then
    some (overlapAt p.outgoing occupied s || overlapAt p.ret occupied s,
      installLink p.ret x occupied (installLink p.outgoing x occupied s))
  else none

/-- The record under a key, where DISCOVERY owns it (R21). -/
def State.discovered (s : State) (key : LinkKey) : Option LinkRecord :=
  (s.linkByKey key).filter fun r => r.owner = .discovery

/-- Set state (R21). -/
def setLinkState (key : LinkKey) (st : LinkState) (s : State) : State :=
  match s.discovered key with
  | some r => changeLink r { r with state := st } s
  | none => s

/-- Set FOREIGN slots (R21). -/
def setForeign (key : LinkKey) (occupied : SlotMask) (s : State) : State :=
  match s.discovered key with
  | some r => changeLink r { r with channels := applyMask r.channels occupied } s
  | none => s

/-- The overlap report of a set-FOREIGN request (R21). -/
def foreignOverlap (key : LinkKey) (occupied : SlotMask) (s : State) : Bool :=
  match s.discovered key with
  | some r => maskOverlaps r.channels occupied
  | none => false

/-- Remove (R21): a record in use becomes DOWN with removal deferred. -/
def removeDiscovered (key : LinkKey) (s : State) : State :=
  match s.discovered key with
  | some r =>
    if mapInUse r.channels then changeLink r { r with state := .down, removalDeferred := true } s else removeLink r s
  | none => s

/-- Either record of a pair is in use (R111, R116). DESIGN CHOICE (log entry 28): the record that stands under a key of the pair
counts whatever its owner, be it an agent that advertised the key after another degree removed a shared record (R104). -/
def pairInUse (p : InstalledPair) (s : State) : Bool :=
  [p.outgoing, p.ret].any fun k => match s.linkByKey k with
    | some r => mapInUse r.channels
    | none => false

/-! ## Warm reset (R26, steps 2 to 4) -/

/-- The record at `i` in steps 2 and 3 of R26: agent-owned and not STALE becomes STALE, DISCOVERY becomes DOWN. -/
def warmResetLink (i : Nat) (s : State) : State :=
  match s.linkAt i with
  | some r =>
    match r.owner with
    | .agent _ => if r.state ≠ .stale then changeLinkQuietly r (staled r) s else s
    | .discovery => changeLinkQuietly r { r with state := .down } s
  | none => s

/-- Steps 2 to 4 of R26: notices in ascending link index, and one increase of the counter
(DEDUCED, log entry 22). -/
def warmResetStore (s : State) : State :=
  bumpGeneration (forEach (s.links.map (·.index)) warmResetLink s)

end Sys2Proof.Machine
end

