-- ==== Sys2Proof/Machine/Degrees.lean ====
section
/-! DEFINITION. The degree controllers (chapters 5 and 6): states, counters, probes, loss, discovery, conversion and install,
mismatch, keepalive, remote degradation, hold-down, carrier, and the degree commands. -/

namespace Sys2Proof.Machine

/-- Change a degree record in place. -/
def modifyDegree (d : DegreeNo) (f : Degree → Degree) (s : State) : State := s.setDegree d (f (s.degree d))

/-! ## Shared operations -/

/-- DEGREE EVENT for a change of state, where it is one (R105). -/
def offerDegreeEvent (d : DegreeNo) (old new : DegreeState) (reason : DegreeReason) (s : State) : State :=
  if old = new then s else offerAll (.degreeEvent d old new reason) s

/-- The degree enters a state; DEGREE EVENT is offered where the state changes (R105). -/
def enterDegree (d : DegreeNo) (st : DegreeState) (reason : DegreeReason) (s : State) : State :=
  offerDegreeEvent d (s.degree d).state st reason (modifyDegree d (fun x => { x with state := st }) s)

/-- No probe outstanding, keepalive exchange and hold-down ended, no pending install (R110 step 1, R114, R125, R133). -/
def quiet (x : Degree) : Degree :=
  { x with outstanding := none, probeTimer := none, intervalTimer := none, holdDownTimer := none, pendingInstall := none }

/-- Set-state requests for the installed pair, outgoing link first; none where it is absent (R104, R142). -/
def setPair (d : DegreeNo) (st : LinkState) (s : State) : State :=
  match (s.degree d).installedPair with
  | some p => setLinkState p.ret st (setLinkState p.outgoing st s)
  | none => s

/-- Hand a probe to the supervisory-channel port, which holds it until PROBE_SEND (R106, DEDUCED, log entry 6). -/
def handProbe (p : Probe) (x : Degree) : Degree := { x with outstanding := some p, probeTimer := none }

/-- One counter of a degree (R143). -/
def counterOf (x : Degree) : CounterName → BitVec 8
  | .probeTimeouts => x.probeTimeouts
  | .erroredAnswers => x.erroredAnswers
  | .carrierDrops => x.carrierDrops

/-- A degree record with one counter written (R143, R144). -/
def setCounter (x : Degree) (c : CounterName) (v : BitVec 8) : Degree :=
  match c with
  | .probeTimeouts => { x with probeTimeouts := v }
  | .erroredAnswers => { x with erroredAnswers := v }
  | .carrierDrops => { x with carrierDrops := v }

/-- A counter increases by 1; a wrap from 255 to 0 offers COUNTER WRAP (R143). -/
def countUp (d : DegreeNo) (c : CounterName) (s : State) : State :=
  let x := s.degree d
  let s1 := s.setDegree d (setCounter x c (counterOf x c + 1))
  if counterOf x c = 255 then offerAll (.counterWrap d c) s1 else s1

/-- Entry to EXHAUSTED or FAULT: probes end, the pair is set DOWN, then the event (R114). -/
def enterFailed (d : DegreeNo) (st : DegreeState) (reason : DegreeReason) (s : State) : State :=
  enterDegree d st reason (setPair d .down (modifyDegree d quiet s))

/-- Steps 1 to 4 of R133: what the entry to LOST does before its DEGREE EVENT. -/
def loseService (d : DegreeNo) (s : State) : State :=
  setPair d .down (modifyDegree d (fun x => { quiet x with recovery := true }) s)

/-- Entry to LOST (R133). -/
def enterLost (d : DegreeNo) (reason : DegreeReason) (s : State) : State := enterDegree d .lost reason (loseService d s)

/-- The outcome of a loss-declare expiry by state (R132); the timer has stopped. -/
def lossDeclared (d : DegreeNo) (s : State) : State :=
  match (s.degree d).state with
  | .idle | .probing | .collecting | .up | .degraded | .holddown => enterLost d .carrierLoss s
  | .lost | .exhausted | .fault | .mismatch | .disabled => s

/-- The loss-declare timer starts; with a loss-declare time of 0 it expires within the same event (R131). -/
def startLossTimer (d : DegreeNo) (s : State) : State :=
  let t := (s.degree d).config.lossDeclare * 100
  if t = 0 then lossDeclared d s else modifyDegree d (fun x => { x with lossTimer := some t }) s

/-- The second starting case of R131: the carrier is ABSENT and the timer is not running. -/
def startLossIfDark (d : DegreeNo) (s : State) : State :=
  if (s.degree d).carrier = .absent ∧ (s.degree d).lossTimer = none then startLossTimer d s else s

/-- The second starting case of R131 with a loss-declare time of 0: R132 applies within the event. -/
def lostAtOnce (x : Degree) : Bool := x.carrier = .absent ∧ x.lossTimer = none ∧ x.config.lossDeclare = 0

/-- The degree enters IDLE or PROBING at an event that times a dark line (R131). DESIGN CHOICE (log entry 27): where the line
is lost at once, the degree first enters `st` and then LOST, and DEGREE EVENT is offered for each of the two changes, be the
state as before or not. Both are offered after the set-state requests of the entry to LOST (R105, R145). -/
def enterTimed (d : DegreeNo) (st : DegreeState) (reason : DegreeReason) (s : State) : State :=
  if lostAtOnce (s.degree d) then
    enterDegree d .lost .carrierLoss
      (offerDegreeEvent d (s.degree d).state st reason (loseService d (modifyDegree d (fun x => { x with state := st }) s)))
  else startLossIfDark d (enterDegree d st reason s)

/-! ## Starting a discovery (R110) -/

/-- An event that starts a discovery: the steps of R110, with the loss-declare timer of R131. DESIGN CHOICE (log entry 27): on a
line that is lost at once, R110 is applied before R132, so that the IDENT it handed to the port is dropped unsent. -/
def startDiscovery (d : DegreeNo) (reason : DegreeReason) (s : State) : State :=
  let s1 := modifyDegree d quiet s
  if s1.localId = 0 then enterTimed d .idle reason s1
  else
    let tries := (s1.degree d).config.tries
    let s2 := modifyDegree d (fun x => { x with triesRemaining := tries }) s1
    if tries = 0 then startLossIfDark d (enterFailed d .exhausted reason s2)
    else enterTimed d .probing reason (modifyDegree d (handProbe .ident) s2)

/-! ## Installing the pair (R115 to R118) -/

/-- The keys of the pair a degree found (R104). -/
def foundPair (d : DegreeNo) (localId : NodeId) (x : Degree) : InstalledPair :=
  { outgoing := ⟨localId, x.farNode, BitVec.ofNat 8 d⟩, ret := ⟨x.farNode, localId, x.farIface⟩ }

/-- The far end found is that of the installed pair's keys (R111, R116). -/
def sameFarEnd (x : Degree) (p : InstalledPair) : Bool := p.outgoing.toNode == x.farNode && p.ret.iface == x.farIface

/-- The data of R115. -/
def pairData (x : Degree) (c : Conversion) : PairData :=
  { state := if x.chain.any (·.alarm) then .degraded else .up, cost := x.config.cost, delay := c.delay, noise := c.noise
    illegalNoise := c.illegalNoise, srlg := x.config.srlg, capability := x.farCapability &&& x.config.capability }

/-- The arithmetic holds take the exceptions of a conversion (R41). -/
def holdExceptions (e : Exceptions) (x : Degree) : Degree :=
  { x with
    overflowHold := x.overflowHold || e.overflow, underflowHold := x.underflowHold || e.underflow
    illegalHold := x.illegalHold || e.illegal }

/-- The degree state that a link state names (R116). -/
def serviceState : LinkState → DegreeState
  | .degraded => .degraded
  | _ => .up

/-- In UP, DEGRADED or HOLDDOWN, where the keepalive exchange runs (R135). -/
def inService : DegreeState → Bool
  | .up | .degraded | .holddown => true
  | _ => false

/-- The keepalive exchange begins (R135). -/
def beginKeepalive (x : Degree) : Degree :=
  { x with missCount := 0, errorRun := 0, outstanding := none, probeTimer := none, intervalTimer := some Config.keepaliveMs }

/-- The store refused an install for lack of room (R118). -/
def tableFull (d : DegreeNo) (s : State) : State :=
  let s1 := setPair d .down (modifyDegree d quiet s)
  enterDegree d .fault .tableFull (modifyDegree d (fun x => { x with installedPair := none }) s1)

/-- Remove requests for the installed pair, outgoing link first; the installed pair becomes absent (R104, R116, R125). -/
def removePair (d : DegreeNo) (s : State) : State :=
  match (s.degree d).installedPair with
  | some p =>
    modifyDegree d (fun x => { x with installedPair := none }) (removeDiscovered p.ret (removeDiscovered p.outgoing s))
  | none => s

/-- An install into service (R116). -/
def serviceInstall (d : DegreeNo) (data : PairData) (s : State) : State :=
  let x := s.degree d
  let s1 := match x.installedPair with
    | some p => if sameFarEnd x p then s else removePair d s
    | none => s
  let pair := foundPair d s.localId x
  match installPair pair data x.farOccupied s1 with
  | none => tableFull d s1
  | some (ov, s2) =>
    enterDegree d (serviceState data.state) .installed
      (modifyDegree d (fun y => beginKeepalive { y with installedPair := some pair, recovery := false, overlap := ov }) s2)

/-- The degree enters HOLDDOWN with its pending install, hold-down and keepalive exchange (R117, R135, R140). -/
def enterHolddown (d : DegreeNo) (data : PairData) (s : State) : State :=
  enterDegree d .holddown .installed
    (modifyDegree d (fun y => { beginKeepalive y with
      pendingInstall := some data, holdDownTimer := some (y.config.holdDown * 1000) }) s)

/-- An install that is a recovery into hold-down (R117; DEDUCED, log entry 13, for an old pair in use). -/
def holddownInstall (d : DegreeNo) (data : PairData) (s : State) : State :=
  let x := s.degree d
  if x.installedPair.any (sameFarEnd x) then enterHolddown d data (setPair d .holddown s)
  else
    let s1 := match x.installedPair with
      | some p => if pairInUse p s then s else removePair d s
      | none => s
    let pair := foundPair d s.localId x
    match installPair pair data x.farOccupied s1 with
    | none => tableFull d s1
    | some (ov, s2) =>
      enterHolddown d data
        (setPair d .holddown (modifyDegree d (fun y => { y with installedPair := some pair, overlap := ov }) s2))

/-- A complete chain is converted and the pair installed (R115, R116, R117). -/
def completeChain (d : DegreeNo) (s : State) : State :=
  let x := s.degree d
  let c := convertChain x.config.profile x.chain
  let data := pairData x c
  let s1 := modifyDegree d (holdExceptions c.exceptions) s
  if x.recovery ∧ x.config.holdDown ≠ 0 then holddownInstall d data s1 else serviceInstall d data s1

/-! ## Answers (R107, R111 to R113, R120, R136 to R139) -/

/-- An answer that passed the frame check (R106). -/
inductive ScAnswer where
  | ident (x : IdentContents)
  | chain (batch : Byte) (sites : List SiteRecord) (more : Bool)
  | keepalive (error : Bool) (occupied : SlotMask)
  deriving DecidableEq, Repr

/-- The kind and batch tests of R107 against the outstanding probe. -/
def answersProbe : ScAnswer → Option Probe → Bool
  | .ident _, some .ident => true
  | .chain b _ _, some (.chain n) => b.toNat == n
  | .keepalive _ _, some .keepalive => true
  | _, _ => false

/-- The outstanding probe becomes none and its timer stops (R107). DESIGN CHOICE (log entry 30): an answer accepted for a KEEPALIVE
that the port still holds drops it unsent, and the interval timer, which only the sending restarts (R135), stays stopped. -/
def clearProbe (x : Degree) : Degree := { x with outstanding := none, probeTimer := none }

/-- The fields an IDENT answer writes (R111). -/
def identFields (a : IdentContents) (x : Degree) : Degree :=
  { x with
    farNode := a.node, farIface := a.iface, farCapability := a.capability, farOccupied := a.occupied
    siteCount := a.siteCount.toNat, chain := [] }

/-- The far end differs from the installed pair's keys and either record is in use (case 3 of R111; whoever owns it, log entry 28). -/
def mismatched (d : DegreeNo) (s : State) : Bool :=
  match (s.degree d).installedPair with
  | some p => !sameFarEnd (s.degree d) p && pairInUse p s
  | none => false

/-- Entry to MISMATCH (R120). -/
def enterMismatch (d : DegreeNo) (s : State) : State :=
  enterDegree d .mismatch .farEndChanged (setPair d .down (modifyDegree d quiet s))

/-- An IDENT answer accepted in PROBING (R111). -/
def identAccepted (d : DegreeNo) (a : IdentContents) (s : State) : State :=
  let s1 := modifyDegree d (identFields a) s
  if a.overflow then enterFailed d .fault .chainOverflow s1
  else if a.node = 0 ∨ a.node = s1.localId then enterFailed d .fault .farEnd s1
  else if mismatched d s1 then enterMismatch d s1
  else if a.siteCount = 0 then completeChain d s1
  else enterDegree d .collecting .collect (modifyDegree d (handProbe (.chain 0)) s1)

/-- A CHAIN answer accepted in COLLECTING (R112, R113). -/
def chainAccepted (d : DegreeNo) (batch : Nat) (sites : List SiteRecord) (more : Bool) (s : State) : State :=
  let s1 := modifyDegree d (fun x => { x with chain := x.chain ++ sites }) s
  if more then
    if batch < 2 then modifyDegree d (handProbe (.chain (batch + 1))) s1 else enterFailed d .fault .chainCount s1
  else if (s1.degree d).chain.length = (s1.degree d).siteCount then completeChain d s1
  else enterFailed d .fault .chainCount s1

/-- The far-end error indication in UP (R138). -/
def errorInUp (d : DegreeNo) (error : Bool) (s : State) : State :=
  let run := if error then (s.degree d).errorRun + 1 else 0
  if run < Config.runLimit then modifyDegree d (fun x => { x with errorRun := run }) s
  else enterDegree d .degraded .remoteDegraded
    (setPair d .degraded (modifyDegree d (fun x => { x with errorRun := 0 }) s))

/-- The far-end error indication in DEGRADED (R139). -/
def errorInDegraded (d : DegreeNo) (error : Bool) (s : State) : State :=
  let run := if error then 0 else min ((s.degree d).errorRun + 1) Config.runLimit
  if run < Config.runLimit ∨ (s.degree d).chain.any (·.alarm) then modifyDegree d (fun x => { x with errorRun := run }) s
  else enterDegree d .up .remoteClear (setPair d .up (modifyDegree d (fun x => { x with errorRun := 0 }) s))

/-- The error indication is judged by the state (R136 step 5). -/
def judgeError (d : DegreeNo) (error : Bool) (s : State) : State :=
  match (s.degree d).state with
  | .up => errorInUp d error s
  | .degraded => errorInDegraded d error s
  | _ => s

/-- The far-end occupied mask is applied to the pair, and OVERLAP written (R136 steps 3 and 4, R119). -/
def applyFarMask (d : DegreeNo) (occupied : SlotMask) (s : State) : State :=
  match (s.degree d).installedPair with
  | some p =>
    let s1 := setForeign p.outgoing occupied s
    let ov := foreignOverlap p.outgoing occupied s || foreignOverlap p.ret occupied s1
    modifyDegree d (fun x => { x with overlap := ov }) (setForeign p.ret occupied s1)
  | none => s

/-- A KEEPALIVE answer accepted (R136). -/
def keepaliveAccepted (d : DegreeNo) (error : Bool) (occupied : SlotMask) (s : State) : State :=
  judgeError d error
    (applyFarMask d occupied (modifyDegree d (fun x => { x with missCount := 0, farOccupied := occupied }) s))

/-- An accepted answer acts by its kind and the degree's state (R107). -/
def answerAccepted (d : DegreeNo) (a : ScAnswer) (s : State) : State :=
  match a with
  | .ident x => if (s.degree d).state = .probing then identAccepted d x s else s
  | .chain b sites more => if (s.degree d).state = .collecting then chainAccepted d b.toNat sites more s else s
  | .keepalive e m => if inService (s.degree d).state then keepaliveAccepted d e m s else s

/-- A frame arrives on a supervisory-channel port (R107): `none` is one that fails the frame check. Answers are judged
in READY alone, and not counted in DISABLED (R107, R129, R176, R181). -/
def receiveAnswer (d : DegreeNo) (a : Option ScAnswer) (s : State) : State :=
  if s.loadState ≠ .ready ∨ (s.degree d).state = .disabled then s
  else
    match a with
    | some x =>
      if answersProbe x (s.degree d).outstanding then answerAccepted d x (modifyDegree d clearProbe s)
      else countUp d .erroredAnswers s
    | none => countUp d .erroredAnswers s

/-! ## Probe, keepalive, settle and hold-down timers -/

/-- Expiry of an IDENT or CHAIN probe timer (R108). -/
def probeExpired (d : DegreeNo) (s : State) : State :=
  let x := s.degree d
  match x.outstanding with
  | some p =>
    if p ≠ .keepalive ∧ x.probeTimer.isSome then
      let s1 := countUp d .probeTimeouts s
      if 2 ≤ x.triesRemaining then
        modifyDegree d (fun y => handProbe p { y with triesRemaining := x.triesRemaining - 1 }) s1
      else enterFailed d .exhausted .tries (modifyDegree d (fun y => { y with triesRemaining := 0 }) s1)
    else s
  | none => s

/-- Expiry of an outstanding KEEPALIVE's timer (R137). -/
def keepaliveExpired (d : DegreeNo) (s : State) : State :=
  let x := s.degree d
  if x.outstanding = some .keepalive ∧ x.probeTimer.isSome then
    let s1 := modifyDegree d (fun y => { clearProbe y with missCount := y.missCount + 1 }) (countUp d .probeTimeouts s)
    if Config.missLimit ≤ x.missCount + 1 then enterLost d .keepaliveLoss s1 else s1
  else s

/-- Expiry of the keepalive interval timer (R135): the timer restarts when the probe is sent. -/
def intervalExpired (d : DegreeNo) (s : State) : State :=
  if (s.degree d).intervalTimer.isSome then
    modifyDegree d (fun x => handProbe .keepalive { x with intervalTimer := none }) s
  else s

/-- Expiry of the loss-declare timer (R131, R132). -/
def lossExpired (d : DegreeNo) (s : State) : State :=
  if (s.degree d).lossTimer.isSome then lossDeclared d (modifyDegree d (fun x => { x with lossTimer := none }) s) else s

/-- Expiry of the settle timer (R134). -/
def settleExpired (d : DegreeNo) (s : State) : State :=
  if (s.degree d).settleTimer.isSome then
    let s1 := modifyDegree d (fun x => { x with settleTimer := none }) s
    if (s.degree d).state = .lost ∧ s.localId ≠ 0 then startDiscovery d .carrierRestore s1 else s1
  else s

/-- The end install of a hold-down (R140). -/
def endHolddown (d : DegreeNo) (p : InstalledPair) (data : PairData) (s : State) : State :=
  match installPair p data (s.degree d).farOccupied s with
  | none => tableFull d s
  | some (ov, s1) =>
    enterDegree d (serviceState data.state) .holddownEnd
      (modifyDegree d (fun x => { x with overlap := ov, recovery := false, pendingInstall := none }) s1)

/-- Expiry of the hold-down timer (R140). -/
def holdDownExpired (d : DegreeNo) (s : State) : State :=
  let x := s.degree d
  if x.holdDownTimer.isSome then
    let s1 := modifyDegree d (fun y => { y with holdDownTimer := none }) s
    match x.installedPair, x.pendingInstall with
    | some p, some data => endHolddown d p data s1
    | _, _ => s1
  else s

/-! ## Carrier (R130, R131, R134, R146) -/

/-- The part takes carrier changes as transitions: READY, or RESET entered from READY (R130, R176, R181). -/
def takesTransitions : LoadState → Bool
  | .ready | .resetFromReady => true
  | .loading | .resetFromLoading => false

/-- The debounce timers at a transition, outside DISABLED and the warm-reset assertion (R131, R134). -/
def debounce (d : DegreeNo) (c : Carrier) (s : State) : State :=
  if s.loadState ≠ .ready ∨ (s.degree d).state = .disabled then s
  else match c with
    | .absent => startLossTimer d (modifyDegree d (fun x => { x with settleTimer := none }) s)
    | .present => modifyDegree d (fun x => { x with lossTimer := none, settleTimer := some Config.settleMs }) s

/-- A transition of the carrier (R130): recorded, CARRIER, the count, then the debounce (R145). -/
def carrierTransition (d : DegreeNo) (c : Carrier) (s : State) : State :=
  let s1 := offerAll (.carrier d c) (modifyDegree d (fun x => { x with carrier := c }) s)
  debounce d c (if c = .absent then countUp d .carrierDrops s1 else s1)

/-- The port of degree `d` reports a carrier indication (R130, R176). -/
def carrierReported (d : DegreeNo) (c : Carrier) (s : State) : State :=
  let s1 := modifyDegree d (fun x => { x with lineCarrier := c }) s
  if takesTransitions s.loadState ∧ (s.degree d).carrier ≠ c then carrierTransition d c s1 else s1

/-! ## Commands (R122 to R127, R144) -/

/-- A listed profile code (R122, Table 10-7). -/
def profileOf (c : Byte) : Option Profile :=
  if c = 0 then some .native else if c = 1 then some .linear24 else if c = 2 then some .perkm else none

/-- The configured fields, where they pass the tests of R122. -/
def configOf (p : DegreeParams) : Option DegreeConfig :=
  match profileOf p.profile with
  | none => none
  | some profile =>
    if srlgBad p.srlg ∨ 15 < p.tries.toNat ∨ 100 < p.lossDeclare.toNat ∨ 600 < p.holdDown.toNat then none
    else some
      { enable := p.enable, profile := profile, cost := p.cost, capability := p.capability, srlg := p.srlg
        tries := p.tries.toNat, lossDeclare := p.lossDeclare.toNat, holdDown := p.holdDown.toNat }

/-- Disabling (R125). -/
def disableDegree (d : DegreeNo) (s : State) : State :=
  let s1 := modifyDegree d (fun x => { quiet x with lossTimer := none, settleTimer := none }) s
  enterDegree d .disabled .config (modifyDegree d (fun x => { x with recovery := false }) (removePair d s1))

/-- The effect of an accepted SET DEGREE on the state (the table of R123, R131). -/
def applyEnable (d : DegreeNo) (enable : Bool) (s : State) : State :=
  if (s.degree d).state = .disabled then
    if enable then enterTimed d .idle .config s else s
  else if enable then s else disableDegree d s

/-- The degree a byte names (R155). -/
def degreeOf (b : Byte) : Option DegreeNo := if h : b.toNat < 8 then some ⟨b.toNat, h⟩ else none

/-- SET DEGREE (R122, R123). -/
def degreeSet (t : Ticket) (b : Byte) (p : DegreeParams) (s : State) : State :=
  match degreeOf b, configOf p with
  | some d, some c =>
    applyEnable d c.enable
      (answer t .ok .empty (modifyDegree d (fun x => { x with config := c, triesRemaining := c.tries }) s))
  | _, _ => answer t .badField .empty s

/-- DISCOVER (R126): answered before the discovery starts. -/
def degreeDiscover (t : Ticket) (b : Byte) (s : State) : State :=
  match degreeOf b with
  | none => answer t .badField .empty s
  | some d =>
    if s.localId = 0 ∨ (s.degree d).state = .disabled then answer t .notReady .empty s
    else startDiscovery d .discover (answer t .ok .empty s)

/-- QUERY DEGREE (R127, R41): the answer is placed, then the arithmetic holds are cleared. -/
def degreeQuery (t : Ticket) (b : Byte) (s : State) : State :=
  match degreeOf b with
  | none => answer t .badField .empty s
  | some d =>
    modifyDegree d (fun x => { x with overflowHold := false, underflowHold := false, illegalHold := false })
      (answer t .ok (.degree d (s.degree d)) s)

/-- The counter a code names (Table 10-7). -/
def counterNamed (c : Byte) : Option CounterName :=
  if c = 0 then some .probeTimeouts else if c = 1 then some .erroredAnswers
  else if c = 2 then some .carrierDrops else none

/-- LOAD COUNTER (R144). -/
def degreeLoadCounter (t : Ticket) (b counter value : Byte) (s : State) : State :=
  match degreeOf b, counterNamed counter with
  | some d, some c => answer t .ok .empty (modifyDegree d (fun x => setCounter x c value) s)
  | _, _ => answer t .badField .empty s

/-! ## Power-on, warm reset (R128, R129, R146, R147) -/

/-- A degree takes its state at the entry to READY after power-on: its carrier is recorded, and an enabled degree
starts (R128, R147). -/
def degreeReady (d : DegreeNo) (s : State) : State :=
  let s1 := modifyDegree d (fun x => { x with carrier := x.lineCarrier }) s
  if (s.degree d).config.enable then startDiscovery d .start s1
  else modifyDegree d (fun x => { x with state := .disabled }) s1

/-- A degree at the assertion of the warm-reset line (R129, R146; DEDUCED, log entry 26, for a DISABLED one). -/
def degreeWarmReset (d : DegreeNo) (s : State) : State :=
  if (s.degree d).state = .disabled then s
  else enterDegree d .idle .warmReset (modifyDegree d (fun x =>
    { quiet x with lossTimer := none, settleTimer := none, missCount := 0, errorRun := 0 }) s)

/-- A degree at the release of the warm-reset line (R129, R146). -/
def degreeRelease (d : DegreeNo) (s : State) : State :=
  if (s.degree d).state = .idle then startDiscovery d .start s else s

end Sys2Proof.Machine
end

