-- ==== Sys2Proof/WellFormed.lean ====
section
/-! DEFINITION. Which operands a frame of the manual can carry. A command that fails its check has no frame
that passes R183, R186 or R188; `exec` still answers on it (as malformed, or as an errored answer). -/

namespace Sys2Proof

/-- An entry of unlisted kind does not carry one of the listed kind codes 1, 2 and 3. -/
def ExclusionEntry.wellFormed : ExclusionEntry → Bool
  | .unknown k => k ≠ 1 && k ≠ 2 && k ≠ 3
  | _ => true

/-- The body can be laid out (a list has a 1-byte count), and with constraint kind ANY the channel byte is
zero (R186). -/
def AgentCommand.wellFormed : AgentCommand → Bool
  | .advertiseLink p => p.srlg.length ≤ 255
  | .pathRequest p =>
      p.exclusions.length ≤ 255 && p.exclusions.all ExclusionEntry.wellFormed &&
      (p.constraintKind ≠ 0 || p.channel == 0)
  | .setDegree _ p => p.srlg.length ≤ 255
  | .setFilter es _ => es.length ≤ 255
  | .withdrawLink _ | .queryLink _ | .listLinks _ | .setLocal _ | .pathCancel _ | .setClass _ _
  | .commit _ _ | .release _ _ | .queryCircuit _ | .discover _ | .queryDegree _ | .loadCounter _ _ _ => true

/-- An IDENT answer's site count is from 0 to 15 (R188). -/
def IdentContents.wellFormed (x : IdentContents) : Bool := x.siteCount.toNat ≤ 15

/-- A CHAIN answer carries 1 to 5 site records (R188). -/
def chainWellFormed (sites : List SiteRecord) : Bool := 1 ≤ sites.length && sites.length ≤ 5

/-- The operands of a command are such as its frame can carry. -/
def Instr.wellFormed : Instr → Bool
  | .advertiseLink _ _ p => (AgentCommand.advertiseLink p).wellFormed
  | .pathRequest _ _ p => (AgentCommand.pathRequest p).wellFormed
  | .setDegree _ _ d p => (AgentCommand.setDegree d p).wellFormed
  | .setFilter _ _ es m => (AgentCommand.setFilter es m).wellFormed
  | .command _ body => body.length ≤ Config.maxBody
  | .identAnswer _ x => x.wellFormed
  | .chainAnswer _ _ sites _ => chainWellFormed sites
  | .configurationApplied image => image.length ≤ Config.imageLength
  | .withdrawLink _ _ _ | .queryLink _ _ _ | .listLinks _ _ _ | .setLocal _ _ _ | .pathCancel _ _ _
  | .setClass _ _ _ _ | .commit _ _ _ _ | .release _ _ _ _ | .queryCircuit _ _ _ | .discover _ _ _
  | .queryDegree _ _ _ | .loadCounter _ _ _ _ _ | .init _ _ _ _ | .credit _ _ | .frameCheckFailure _ _
  | .take _ | .send _ | .linkUp _ | .linkDown _ | .requestArbiter | .settlingStep | .holdExpiry _
  | .lifetimeExpiry _ | .graceExpiry _ | .probeSend _ | .keepaliveAnswer _ _ _ | .erroredAnswer _ _
  | .probeTimeout _ | .keepaliveTimeout _ | .keepaliveIntervalExpiry _ | .carrierChange _ _
  | .lossDeclareExpiry _ | .settleExpiry _ | .holdDownExpiry _ | .powerOn | .warmResetAssertion
  | .warmResetRelease => true

end Sys2Proof
end

