-- ==== Sys2Proof/Machine/Frames.lean ====
section
/-! DEFINITION. Frame and record formats (chapter 10): byte order, check value, agent-link frames and bodies, responses and
notices, supervisory-channel frames, and the configuration memory image. -/

namespace Sys2Proof.Machine

/-! ## Byte order and check value (R182) -/

/-- The `n` bytes of `v`, most significant first. -/
def beBytes : Nat → Nat → List Byte
  | 0, _ => []
  | n + 1, v => BitVec.ofNat 8 (v / 256 ^ n) :: beBytes n v

/-- Read `n` bytes, most significant first. -/
def readBe : Nat → List Byte → Option (Nat × List Byte)
  | 0, l => some (0, l)
  | _ + 1, [] => none
  | n + 1, b :: l =>
    match readBe n l with
    | some (v, r) => some (b.toNat * 256 ^ n + v, r)
    | none => none

/-- One bit of the CRC of R182, on a 32-bit remainder. -/
def crcBit (r : BitVec 32) (b : Bool) : BitVec 32 :=
  if (r.msb ^^ b) then (r <<< 1) ^^^ 0x04C11DB7#32 else r <<< 1

/-- One byte of the CRC, its bits least significant first (R182). -/
def crcByte (r : BitVec 32) (b : Byte) : BitVec 32 :=
  (List.range 8).foldl (fun acc i => crcBit acc (b.getLsbD i)) r

/-- The check value of a list of bytes (R182; DEDUCED, log entry 9). -/
def crcOf (l : List Byte) : BitVec 32 := ~~~(l.foldl crcByte 0xFFFFFFFF#32)

/-- The check value as stored, most significant byte first (R182). -/
def crcBytes (l : List Byte) : List Byte := beBytes 4 (crcOf l).toNat

/-- A slot mask as 12 bytes: slot 0 is bit 7 of the first byte (R182). -/
def maskBytes (m : SlotMask) : List Byte := beBytes 12 m.reverse.toNat

/-- The slot mask that 12 bytes carry. -/
def maskOfWire (v : Nat) : SlotMask := (BitVec.ofNat 96 v).reverse

/-- An 8-bit degree mask as its byte: degree 0 in bit 7 (R182). -/
def degreeMaskByte (m : DegreeMask) : Byte := m.reverse

/-- A yes/no, set/clear or flag byte (Table 10-7). -/
def flagByte (b : Bool) : Byte := if b then 1 else 0

/-! ## Readers of the fields of Table 10-7 -/

/-- A reader takes a field off the front of the bytes, or finds the body malformed. -/
abbrev Reader (α : Type) := List Byte → Option (α × List Byte)

/-- A field of `n` bytes as a word of `w` bits. -/
def readWord (n w : Nat) : Reader (BitVec w) := fun l =>
  match readBe n l with
  | some (v, r) => some (BitVec.ofNat w v, r)
  | none => none

/-- A pad field of `n` bytes: must be zero (R182, R186). -/
def readPad (n : Nat) : Reader Unit := fun l =>
  match readBe n l with
  | some (v, r) => if v = 0 then some ((), r) else none
  | none => none

/-- A flag byte: must be 0 or 1 (R186). -/
def readFlag : Reader Bool := fun l =>
  match l with
  | b :: r => if b = 0 then some (false, r) else if b = 1 then some (true, r) else none
  | [] => none

/-- A slot mask. -/
def readMask : Reader SlotMask := fun l =>
  match readBe 12 l with
  | some (v, r) => some (maskOfWire v, r)
  | none => none

/-- A link key (Table 10-7), its pad bytes zero. -/
def readKey : Reader LinkKey := fun l => do
  let (a, l) ← readWord 4 32 l
  let (b, l) ← readWord 4 32 l
  let (i, l) ← readWord 1 8 l
  let (_, l) ← readPad 3 l
  some (⟨a, b, i⟩, l)

/-- `n` fields in order. -/
def readMany {α : Type} (f : Reader α) : Nat → Reader (List α)
  | 0 => fun l => some ([], l)
  | n + 1 => fun l =>
    match f l with
    | some (x, r) =>
      match readMany f n r with
      | some (xs, r2) => some (x :: xs, r2)
      | none => none
    | none => none

/-- A list preceded by a 1-byte count. -/
def readCounted {α : Type} (f : Reader α) : Reader (List α) := fun l =>
  match l with
  | n :: r => readMany f n.toNat r
  | [] => none

/-- The whole body is one value: nothing is left over (the length test of R186). -/
def readWhole {α : Type} (f : Reader α) (l : List Byte) : Option α :=
  match f l with
  | some (x, []) => some x
  | _ => none

/-! ## Agent commands: bodies (Tables 10-8 and 10-9, R185, R186) -/

/-- ADVERTISE LINK parameters (Table 10-8). -/
def readAdvertise : Reader AdvertiseParams := fun l => do
  let (a, l) ← readWord 4 32 l
  let (b, l) ← readWord 4 32 l
  let (i, l) ← readWord 1 8 l
  let (st, l) ← readWord 1 8 l
  let (cost, l) ← readWord 2 16 l
  let (delay, l) ← readWord 3 24 l
  let (_, l) ← readPad 1 l
  let (noise, l) ← readWord 3 24 l
  let (n, l) ← readBe 1 l
  let (cap, l) ← readMask l
  let (occ, l) ← readMask l
  let (life, l) ← readWord 2 16 l
  let (_, l) ← readPad 2 l
  let (ids, l) ← readMany (readWord 2 16) n l
  some (⟨⟨a, b, i⟩, st, cost, delay, noise, ids, cap, occ, life⟩, l)

/-- One exclusion entry of 12 bytes (section 10.5). -/
def readExclusion : Reader ExclusionEntry := fun l => do
  let (k, l) ← readWord 1 8 l
  if k = 1 then
    let (_, l) ← readPad 3 l
    let (id, l) ← readWord 4 32 l
    let (_, l) ← readPad 4 l
    some (.node id, l)
  else if k = 2 then
    let (i, l) ← readWord 1 8 l
    let (_, l) ← readPad 2 l
    let (a, l) ← readWord 4 32 l
    let (b, l) ← readWord 4 32 l
    some (.link ⟨a, b, i⟩, l)
  else if k = 3 then
    let (_, l) ← readPad 1 l
    let (id, l) ← readWord 2 16 l
    let (_, l) ← readPad 8 l
    some (.srlg id, l)
  else
    let (_, l) ← readBe 11 l
    some (.unknown k, l)

/-- PATH REQUEST parameters (Table 10-9); with ANY the channel number is a pad field. -/
def readPath : Reader PathParams := fun l => do
  let (tag, l) ← readWord 2 16 l
  let (src, l) ← readWord 4 32 l
  let (dst, l) ← readWord 4 32 l
  let (cls, l) ← readWord 1 8 l
  let (ck, l) ← readWord 1 8 l
  let (ch, l) ← readWord 1 8 l
  let (dir, l) ← readWord 1 8 l
  let (pol, l) ← readWord 1 8 l
  let (hops, l) ← readWord 1 8 l
  let (bound, l) ← readWord 3 24 l
  let (deg, l) ← readFlag l
  let (dv, l) ← readWord 1 8 l
  let (hold, l) ← readWord 1 8 l
  let (time, l) ← readWord 2 16 l
  let (am, l) ← readWord 1 8 l
  let (n, l) ← readBe 1 l
  let (_, l) ← readPad 2 l
  let (ex, l) ← readMany readExclusion n l
  if ck = 0 ∧ ch ≠ 0 then none
  else some (⟨tag, src, dst, cls, ck, ch, dir, pol, hops, bound, deg, dv, hold, time, am, ex⟩, l)

/-- The configured fields of SET DEGREE, in the order of Table 5-1 (R122). -/
def readDegree : Reader DegreeParams := fun l => do
  let (en, l) ← readFlag l
  let (pr, l) ← readWord 1 8 l
  let (cost, l) ← readWord 2 16 l
  let (cap, l) ← readMask l
  let (ids, l) ← readCounted (readWord 2 16) l
  let (tries, l) ← readWord 1 8 l
  let (loss, l) ← readWord 1 8 l
  let (hold, l) ← readWord 2 16 l
  some (⟨en, pr, cost, cap, ids, tries, loss, hold⟩, l)

/-- One filter entry. -/
def readFilter : Reader FilterEntry := fun l => do
  let (p, l) ← readWord 4 32 l
  let (m, l) ← readWord 4 32 l
  some (⟨p, m⟩, l)

/-- The parameters of a command kind (Table 10-6); none for an unlisted kind. -/
def readCommand (kind : Nat) : Reader AgentCommand := fun l =>
  match kind with
  | 1 => do let (p, l) ← readAdvertise l; some (.advertiseLink p, l)
  | 2 => do let (k, l) ← readKey l; some (.withdrawLink k, l)
  | 3 => do let (k, l) ← readKey l; some (.queryLink k, l)
  | 4 => do let (x, l) ← readWord 2 16 l; some (.listLinks x, l)
  | 5 => do let (x, l) ← readWord 4 32 l; some (.setLocal x, l)
  | 6 => do let (p, l) ← readPath l; some (.pathRequest p, l)
  | 7 => do let (x, l) ← readWord 2 16 l; some (.pathCancel x, l)
  | 8 => do let (c, l) ← readWord 1 8 l; let (f, l) ← readWord 3 24 l; some (.setClass c f, l)
  | 9 => do let (i, l) ← readWord 1 8 l; let (q, l) ← readWord 1 8 l; some (.commit i q, l)
  | 10 => do let (i, l) ← readWord 1 8 l; let (q, l) ← readWord 1 8 l; some (.release i q, l)
  | 11 => do let (i, l) ← readWord 1 8 l; some (.queryCircuit i, l)
  | 12 => do let (d, l) ← readWord 1 8 l; let (p, l) ← readDegree l; some (.setDegree d p, l)
  | 13 => do let (d, l) ← readWord 1 8 l; some (.discover d, l)
  | 14 => do let (d, l) ← readWord 1 8 l; some (.queryDegree d, l)
  | 15 => do
      let (d, l) ← readWord 1 8 l
      let (c, l) ← readWord 1 8 l
      let (v, l) ← readWord 1 8 l
      some (.loadCounter d c v, l)
  | 16 => do
      let (es, l) ← readCounted readFilter l
      let (m, l) ← readWord 1 8 l
      some (.setFilter es m.reverse, l)
  | _ => none

/-- The judgement of R186 on a command body. The bytes of a prefix that did not arrive are free (DESIGN CHOICE, log entry 8). -/
def judgeBody (body : List Byte) : QueuedCommand :=
  match body with
  | r1 :: r0 :: kind :: pad :: params =>
    let ref : BitVec 16 := BitVec.ofNat 16 (r1.toNat * 256 + r0.toNat)
    if pad ≠ 0 then .malformed ref kind
    else
      match readWhole (readCommand kind.toNat) params with
      | some c => .wellFormed ref c
      | none => .malformed ref kind
  | _ =>
    let byteAt (i : Nat) : Byte := (body[i]?).getD (Config.missingPrefixByte body i)
    .malformed (BitVec.ofNat 16 ((byteAt 0).toNat * 256 + (byteAt 1).toNat)) (byteAt 2)

/-- The judgement on a command given by its parameters: the one its body would get. -/
def judgeTyped (ref : BitVec 16) (c : AgentCommand) : QueuedCommand :=
  if c.wellFormed then .wellFormed ref c else .malformed ref (commandCode c)

/-! ## Agent commands: the body that carries them -/

/-- A word as `n` bytes. -/
def wordBytes (n : Nat) {w : Nat} (v : BitVec w) : List Byte := beBytes n v.toNat

def keyBytes (k : LinkKey) : List Byte := wordBytes 4 k.fromNode ++ wordBytes 4 k.toNode ++ [k.iface] ++ beBytes 3 0

/-- A list of SRLG ids, without its count. -/
def idsBytes (l : List (BitVec 16)) : List Byte := l.flatMap (wordBytes 2)

/-- A 1-byte count. -/
def countByte (n : Nat) : Byte := BitVec.ofNat 8 n

def advertiseBytes (p : AdvertiseParams) : List Byte :=
  wordBytes 4 p.key.fromNode ++ wordBytes 4 p.key.toNode ++ [p.key.iface, p.state] ++ wordBytes 2 p.cost ++
  wordBytes 3 p.delay ++ [0] ++ wordBytes 3 p.noise ++ [countByte p.srlg.length] ++ maskBytes p.capability ++
  maskBytes p.occupied ++ wordBytes 2 p.lifetime ++ [0, 0] ++ idsBytes p.srlg

def exclusionBytes : ExclusionEntry → List Byte
  | .node id => [1, 0, 0, 0] ++ wordBytes 4 id ++ beBytes 4 0
  | .link k => [2, k.iface, 0, 0] ++ wordBytes 4 k.fromNode ++ wordBytes 4 k.toNode
  | .srlg id => [3, 0] ++ wordBytes 2 id ++ beBytes 8 0
  | .unknown k => k :: beBytes 11 0

def pathBytes (p : PathParams) : List Byte :=
  wordBytes 2 p.tag ++ wordBytes 4 p.source ++ wordBytes 4 p.destination ++
  [p.cls, p.constraintKind, p.channel, p.direction, p.policy, p.maxHops] ++ wordBytes 3 p.delayBound ++
  [flagByte p.allowDegraded, p.diversity, p.hold] ++ wordBytes 2 p.holdTime ++
  [p.arithmetic, countByte p.exclusions.length, 0, 0] ++ p.exclusions.flatMap exclusionBytes

def degreeParamBytes (p : DegreeParams) : List Byte :=
  [flagByte p.enable, p.profile] ++ wordBytes 2 p.cost ++ maskBytes p.capability ++ [countByte p.srlg.length] ++
  idsBytes p.srlg ++ [p.tries, p.lossDeclare] ++ wordBytes 2 p.holdDown

/-- The parameters of a command, packed (R185). -/
def paramBytes : AgentCommand → List Byte
  | .advertiseLink p => advertiseBytes p
  | .withdrawLink k | .queryLink k => keyBytes k
  | .listLinks x => wordBytes 2 x
  | .setLocal x => wordBytes 4 x
  | .pathRequest p => pathBytes p
  | .pathCancel x => wordBytes 2 x
  | .setClass c f => c :: wordBytes 3 f
  | .commit i q | .release i q => [i, q]
  | .queryCircuit i => [i]
  | .setDegree d p => d :: degreeParamBytes p
  | .discover d | .queryDegree d => [d]
  | .loadCounter d c v => [d, c, v]
  | .setFilter es m => countByte es.length :: es.flatMap (fun e => wordBytes 4 e.pattern ++ wordBytes 4 e.mask) ++
      [degreeMaskByte m]

/-- The COMMAND body of a command (R185). -/
def commandBody (ref : BitVec 16) (c : AgentCommand) : List Byte :=
  wordBytes 2 ref ++ [commandCode c, 0] ++ paramBytes c

/-! ## Agent-link frames received (R183, R184) -/

/-- What a frame on an agent port is. `bad` fails the frame check, or is of a kind other than 1, 2 and 3. -/
inductive AgentFrame where
  | init (grid credit : Byte) (mask : DegreeMask)
  | credit (count : Byte)
  | command (c : QueuedCommand)
  | bad
  deriving DecidableEq, Repr

/-- A body by its frame kind (R183, R184). -/
def frameOfBody (kind : Byte) (body : List Byte) : AgentFrame :=
  if kind = 3 then .command (judgeBody body)
  else
    match kind.toNat, body with
    | 1, [g, c, m, 0] => .init g c m.reverse
    | 2, [n, 0, 0, 0] => .credit n
    | _, _ => .bad

/-- The frame check of R183 on the bytes the link delivered. -/
def judgeFrame (bytes : List Byte) : AgentFrame :=
  match bytes with
  | kind :: pad :: l1 :: l0 :: rest =>
    let len := l1.toNat * 256 + l0.toNat
    if rest.length = len + 4 ∧ len ≤ Config.maxBody ∧ pad = 0 ∧
        crcBytes (bytes.take (len + 4)) = rest.drop len then
      frameOfBody kind (rest.take len)
    else .bad
  | _ => .bad

/-! ## Agent-link frames sent (Tables 10-2, 10-3, 10-5, R185, R187) -/

/-- A frame of a kind around a body (Table 10-2). -/
def agentFrame (kind : Byte) (body : List Byte) : List Byte :=
  let head := [kind, 0] ++ beBytes 2 body.length ++ body
  head ++ crcBytes head

def gridByte : Grid → Byte
  | .g50 => 1
  | .g100 => 2

/-- The INIT body of Table 10-3. -/
def initBody (k : InitKind) (errors : Nat) : List Byte :=
  (match k with
    | .opening => [1, 0, 8, 3]
    | .accept g => [2, gridByte g, 8, 3]
    | .reject c => [3, c, 0, 3]) ++ beBytes 2 96 ++ beBytes 2 errors

/-- A link frame as sent (Tables 10-3 and 10-5, R184). -/
def linkFrameBytes : LinkFrame → List Byte
  | .init k e => agentFrame 1 (initBody k e)
  | .credit => agentFrame 2 [1, 0, 0, 0]

def linkStateByte : LinkState → Byte
  | .up => 1
  | .degraded => 2
  | .holddown => 3
  | .down => 4
  | .stale => 5

def ownerByte : Owner → Byte
  | .agent a => BitVec.ofNat 8 a
  | .discovery => 4

def roleByte : Role → Byte
  | .working => 0
  | .protection => 1

def handleBytes (h : Handle) : List Byte := [BitVec.ofNat 8 h.index, h.sequence]

/-- A field that may be absent: presence byte, then the field or zeros (section 10.5, R187). -/
def optional (n : Nat) : Option (List Byte) → List Byte
  | some l => 1 :: l
  | none => 0 :: beBytes n 0

/-- Seconds remaining of a timer in ms, rounded up (R187). -/
def secondsLeft (t : Option Nat) : List Byte := optional 2 (t.map fun ms => beBytes 2 ((ms + 999) / 1000))

def slotStateByte : SlotState → Byte
  | .free => 0
  | .foreign => 64
  | .held c => BitVec.ofNat 8 (128 + c)
  | .lit c => BitVec.ofNat 8 (192 + c)

def reasonByte : LinkReason → Byte
  | .created => 1
  | .updated => 2
  | .state => 3
  | .stale => 4
  | .removed => 5
  | .takeover => 6
  | .foreign => 7

def degreeStateByte : DegreeState → Byte
  | .disabled => 0
  | .idle => 1
  | .probing => 2
  | .collecting => 3
  | .up => 4
  | .degraded => 5
  | .holddown => 6
  | .lost => 7
  | .exhausted => 8
  | .fault => 9
  | .mismatch => 10

def degreeReasonByte : DegreeReason → Byte
  | .config => 1
  | .discover => 2
  | .start => 3
  | .warmReset => 4
  | .collect => 5
  | .tries => 6
  | .chainOverflow => 7
  | .chainCount => 8
  | .farEnd => 9
  | .tableFull => 10
  | .farEndChanged => 11
  | .installed => 12
  | .carrierLoss => 13
  | .keepaliveLoss => 14
  | .carrierRestore => 15
  | .holddownEnd => 16
  | .remoteDegraded => 17
  | .remoteClear => 18

def carrierByte : Carrier → Byte
  | .absent => 0
  | .present => 1

def counterByte : CounterName → Byte
  | .probeTimeouts => 0
  | .erroredAnswers => 1
  | .carrierDrops => 2

def profileByte : Profile → Byte
  | .native => 0
  | .linear24 => 1
  | .perkm => 2

/-- Table 8-3. -/
def completionByte : Completion → Byte
  | .ok => 0
  | .badField => 1
  | .notReady => 2
  | .notOwner => 3
  | .noEntry => 4
  | .tableFull => 5
  | .inUse => 6
  | .busy => 7
  | .duplicateTag => 8
  | .noPath => 9
  | .noDiverse => 10
  | .conflict => 11
  | .holdRefused => 12
  | .cancelled => 13
  | .arithAbort => 14

/-- The contents of a QUERY LINK answer (R24, R187) (DEDUCED, log entry 18). -/
def linkAnswerBytes (r : LinkRecord) (generation : BitVec 32) : List Byte :=
  keyBytes r.key ++ beBytes 2 r.index ++ [ownerByte r.owner, linkStateByte r.state] ++ wordBytes 2 r.cost ++
  wordBytes 3 r.delay ++ wordBytes 3 r.noise ++ [flagByte r.illegalNoise, countByte r.srlg.length] ++ idsBytes r.srlg ++
  maskBytes r.capability ++ r.channels.toList.map slotStateByte ++ secondsLeft r.lifetime ++ secondsLeft r.grace ++
  [flagByte r.removalDeferred, flagByte r.discoveredPair] ++ wordBytes 4 generation

/-- One path block (section 10.5). -/
def pathBlockBytes (b : PathBlock) : List Byte :=
  [BitVec.ofNat 8 b.channel, countByte b.keys.length, 0, 0] ++ beBytes 4 b.cost ++ beBytes 3 b.delay ++ [0] ++
  wordBytes 3 b.noise ++ [0] ++ b.keys.flatMap keyBytes

/-- The flags byte of Table 10-10. -/
def resultFlags (r : PathResult) : Byte :=
  BitVec.ofNat 8 ((if r.staleTopology then 1 else 0) + (if r.overflow then 2 else 0) + (if r.illegalSkipped then 4 else 0) +
    (if r.working.isSome then 8 else 0) + (if r.protection.isSome then 16 else 0) +
    (if r.handles.isEmpty then 0 else 32))

/-- A path result (Table 10-10). -/
def resultBytes (r : PathResult) : List Byte :=
  wordBytes 2 r.tag ++ [resultFlags r, countByte r.retries] ++ (r.working.map pathBlockBytes).getD [] ++
  (r.protection.map pathBlockBytes).getD [] ++ r.handles.flatMap handleBytes

/-- The contents of an OK answer to QUERY CIRCUIT (R98). -/
def circuitBytes (h : Handle) (c : Circuit) (partner : Option Handle) : List Byte :=
  handleBytes h ++ [(match c.state with | .held => 1 | .lit => 2), BitVec.ofNat 8 c.owner] ++ wordBytes 2 c.tag ++
  [BitVec.ofNat 8 c.firstSlot, BitVec.ofNat 8 c.width, countByte c.path.length] ++
  c.path.flatMap (fun p => keyBytes p.key ++ beBytes 2 p.index) ++ [roleByte c.role] ++
  optional 2 (partner.map handleBytes) ++ [flagByte c.affected] ++ secondsLeft c.hold

/-- One site record (Table 10-7, R127). -/
def siteBytes (x : SiteRecord) : List Byte :=
  wordBytes 4 x.id ++ wordBytes 2 x.span ++ wordBytes 3 x.delay ++ wordBytes 3 x.raw ++ [flagByte x.alarm]

/-- The contents of an answer to QUERY DEGREE, in the order of R127. -/
def degreeBytes (n : DegreeNo) (d : Degree) : List Byte :=
  [BitVec.ofNat 8 n, flagByte d.config.enable, profileByte d.config.profile] ++ wordBytes 2 d.config.cost ++
  maskBytes d.config.capability ++ [countByte d.config.srlg.length] ++ idsBytes d.config.srlg ++
  [BitVec.ofNat 8 d.config.tries, BitVec.ofNat 8 d.config.lossDeclare] ++ beBytes 2 d.config.holdDown ++
  [degreeStateByte d.state, BitVec.ofNat 8 d.triesRemaining] ++ wordBytes 4 d.farNode ++ [d.farIface] ++
  maskBytes d.farCapability ++ maskBytes d.farOccupied ++ [BitVec.ofNat 8 d.siteCount, countByte d.chain.length] ++
  d.chain.flatMap siteBytes ++ optional 24 (d.installedPair.map fun p => keyBytes p.outgoing ++ keyBytes p.ret) ++
  [flagByte d.pendingInstall.isSome, flagByte d.recovery, BitVec.ofNat 8 d.missCount, BitVec.ofNat 8 d.errorRun,
    d.probeTimeouts, d.erroredAnswers, d.carrierDrops, flagByte d.overflowHold, flagByte d.underflowHold,
    flagByte d.illegalHold, flagByte d.overlap]

/-- What a response carries after its prefix (section 10.5). -/
def responseContents : ResponseBody → List Byte
  | .empty => []
  | .overlap b => [flagByte b]
  | .link r g => linkAnswerBytes r g
  | .links es next g =>
      countByte es.length :: es.flatMap (fun e => beBytes 2 e.1 ++ keyBytes e.2) ++ beBytes 2 next ++ wordBytes 4 g
  | .path r => resultBytes r
  | .circuit h c p => circuitBytes h c p
  | .sequence n => [n]
  | .degree n d => degreeBytes n d

/-- A RESPONSE frame (R185). -/
def responseBytes (r : Response) : List Byte :=
  agentFrame 4 (wordBytes 2 r.ref ++ [r.kind, completionByte r.code] ++ responseContents r.body)

/-- The kind code and contents of a notice (Tables 8-2 and 10-6). -/
def noticeContents : Notice → Byte × List Byte
  | .linkChanged k st r => (1, keyBytes k ++ [linkStateByte st, reasonByte r])
  | .classChanged c f w => (2, BitVec.ofNat 8 c :: wordBytes 3 f ++ [BitVec.ofNat 8 w])
  | .holdExpired h t r f w p =>
      (3, handleBytes h ++ wordBytes 2 t ++ [roleByte r, BitVec.ofNat 8 f, BitVec.ofNat 8 w] ++
        optional 2 (p.map handleBytes))
  | .circuitAffected h t r i k st =>
      (4, handleBytes h ++ wordBytes 2 t ++ [roleByte r, (match i with | .affected => 1 | .restored => 2)] ++
        keyBytes k ++ [linkStateByte st])
  | .degreeEvent d p n r => (5, [BitVec.ofNat 8 d, degreeStateByte p, degreeStateByte n, degreeReasonByte r])
  | .carrier d c => (6, [BitVec.ofNat 8 d, carrierByte c])
  | .counterWrap d c => (7, [BitVec.ofNat 8 d, counterByte c])

/-- A NOTICE frame (R185, R187). -/
def noticeBytes (n : QueuedNotice) : List Byte :=
  let c := noticeContents n.notice
  agentFrame 5 ([c.1, BitVec.ofNat 8 n.lost, 0, 0] ++ c.2)

/-! ## Supervisory-channel frames (Tables 10-11 and 10-12, R188) -/

/-- A probe as sent (R188). -/
def probeBytes (localId : NodeId) (d : DegreeNo) (p : Probe) : List Byte :=
  let head := (match p with
    | .ident => [1, 0]
    | .chain b => [2, BitVec.ofNat 8 b]
    | .keepalive => [3, 0]) ++ beBytes 2 8 ++ wordBytes 4 localId ++ [BitVec.ofNat 8 d] ++ beBytes 3 0
  head ++ crcBytes head

/-- An IDENT answer body (Table 10-12). -/
def readIdent : Reader ScAnswer := fun l => do
  let (node, l) ← readWord 4 32 l
  let (iface, l) ← readWord 1 8 l
  let (count, l) ← readWord 1 8 l
  let (ovf, l) ← readFlag l
  let (_, l) ← readPad 1 l
  let (cap, l) ← readMask l
  let (occ, l) ← readMask l
  if count.toNat ≤ 15 then some (.ident ⟨node, iface, cap, occ, count, ovf⟩, l) else none

/-- One site record of a CHAIN answer (section 10.6). -/
def readSite : Reader SiteRecord := fun l => do
  let (id, l) ← readWord 4 32 l
  let (span, l) ← readWord 2 16 l
  let (delay, l) ← readWord 3 24 l
  let (raw, l) ← readWord 3 24 l
  let (alarm, l) ← readFlag l
  let (_, l) ← readPad 3 l
  some (⟨id, span, delay, raw, alarm⟩, l)

/-- A CHAIN answer body (Table 10-12). -/
def readChain (batch : Byte) : Reader ScAnswer := fun l => do
  let (k, l) ← readBe 1 l
  let (more, l) ← readFlag l
  let (_, l) ← readPad 2 l
  let (sites, l) ← readMany readSite k l
  if 1 ≤ k ∧ k ≤ 5 then some (.chain batch sites more, l) else none

/-- A KEEPALIVE answer body (Table 10-12). -/
def readKeepalive : Reader ScAnswer := fun l => do
  let (err, l) ← readFlag l
  let (_, l) ← readPad 3 l
  let (occ, l) ← readMask l
  some (.keepalive err occ, l)

/-- An answer body by its kind and the byte at offset 1 (R188). -/
def answerOfBody (kind batch : Byte) (body : List Byte) : Option ScAnswer :=
  if kind = 0x81 ∧ batch = 0 then readWhole readIdent body
  else if kind = 0x82 then readWhole (readChain batch) body
  else if kind = 0x83 ∧ batch = 0 then readWhole readKeepalive body
  else none

/-- The frame check of R188 on the bytes a supervisory-channel port delivered. -/
def judgeAnswer (bytes : List Byte) : Option ScAnswer :=
  match bytes with
  | kind :: batch :: l1 :: l0 :: rest =>
    let len := l1.toNat * 256 + l0.toNat
    if rest.length = len + 4 ∧ len ≤ Config.maxAnswerBody ∧ crcBytes (bytes.take (len + 4)) = rest.drop len then
      answerOfBody kind batch (rest.take len)
    else none
  | _ => none

/-! ## The configuration memory image (Table 10-13, R189) -/

/-- The configuration an image gives (Table 9-1). -/
structure Configuration where
  localId    : NodeId
  portEnable : BitVec 4
  degrees    : Vector DegreeConfig 8
  deriving DecidableEq, Repr

/-- The defaults of R177. -/
def Configuration.defaults : Configuration :=
  { localId := 0, portEnable := 15, degrees := Vector.replicate 8 .default }

/-- `n` bytes at an offset, as a number. -/
def imageAt (image : List Byte) (offset n : Nat) : Nat := ((readBe n (image.drop offset)).map (·.1)).getD 0

/-- The degree block of degree `d` as parameters, with its enable from the mask (section 10.7, R177). -/
def degreeBlock (image : List Byte) (d : Nat) : DegreeParams :=
  let o := 16 + 28 * d
  { enable := (BitVec.ofNat 8 (imageAt image 13 1)).getLsbD (7 - d)
    profile := BitVec.ofNat 8 (imageAt image o 1)
    tries := BitVec.ofNat 8 (imageAt image (o + 1) 1)
    lossDeclare := BitVec.ofNat 8 (imageAt image (o + 2) 1)
    srlg := (List.range (min (imageAt image (o + 3) 1) 5)).map fun i => BitVec.ofNat 16 (imageAt image (o + 8 + 2 * i) 2)
    cost := BitVec.ofNat 16 (imageAt image (o + 4) 2)
    holdDown := BitVec.ofNat 16 (imageAt image (o + 6) 2)
    capability := maskOfWire (imageAt image (o + 16) 12) }

/-- The port enable mask: ports 0 to 3 in bits 7 to 4 (Table 10-13). -/
def imagePorts (b : Nat) : BitVec 4 := (BitVec.ofNat 4 (b / 16)).reverse

/-- The image passes its check: identifier, length, check value (R189). -/
def imageAccepted (image : List Byte) : Bool :=
  image.take 4 == [0x53, 0x38, 0x31, 0x34] && imageAt image 4 2 == 244 && crcBytes (image.take 240) == image.drop 240

/-- The configuration applied after a read that acknowledged these bytes (R177, R189): fewer than 244 is no answer,
and the loader reads no more (DEDUCED, log entry 23). -/
def configurationOf (acknowledged : List Byte) : Configuration :=
  let image := acknowledged.take Config.imageLength
  if image.length = Config.imageLength ∧ imageAccepted image then
    { localId := BitVec.ofNat 32 (imageAt image 8 4)
      portEnable := imagePorts (imageAt image 12 1)
      degrees := Vector.ofFn fun d => (configOf (degreeBlock image d)).getD .default }
  else .defaults

end Sys2Proof.Machine
end

