-- ==== Sys2Proof/Machine/Circuits.lean ====
section
/-! DEFINITION. The circuit table (chapter 4): removal of an entry, the claim, COMMIT, RELEASE, hold expiry, QUERY CIRCUIT, and
what a port loss and a warm reset remove. -/

namespace Sys2Proof.Machine

/-! ## Channel-map writes (R82) -/

/-- Write one state into the slot range on the link at `i`. -/
def writeSlots (first width : Nat) (v : SlotState) (i : Nat) (s : State) : State :=
  match s.linkAt i with
  | some r => s.putLink { r with channels := writeRange r.channels first width v }
  | none => s

/-- Write one state into the slot range on every link of a path, in path order. -/
def writePath (first width : Nat) (v : SlotState) (path : List PathHop) (s : State) : State :=
  forEach (path.map (·.index)) (writeSlots first width v) s

/-! ## Removal (R91) -/

/-- The entry at `c`, if any, has no partner any longer (R91 step 3). -/
def clearPartner (c : CircuitNo) (s : State) : State :=
  match s.circuit c with
  | some e => s.setCircuit c (some { e with partner := none })
  | none => s

/-- The removal of an entry: slots freed, index freed, partner cleared, deferred links rechecked in ascending
link index (R91). -/
def removeCircuit (c : CircuitNo) (e : Circuit) (s : State) : State :=
  let s1 := writePath e.firstSlot e.width .free e.path s
  let s2 := s1.setCircuit c none
  let s3 := match e.partner with
    | some q => clearPartner q s2
    | none => s2
  forEach ((e.path.map (·.index)).insertionSort (· ≤ ·)) recheckDeferred s3

/-- Remove the entry at `c` where it is HELD and of an owner that `who` names. -/
def removeHeld (who : AgentId → Bool) (c : CircuitNo) (s : State) : State :=
  match s.circuit c with
  | some e => if e.state = .held ∧ who e.owner then removeCircuit c e s else s
  | none => s

/-- The port of agent `a` left ACTIVE: its HELD entries are removed, in ascending index (R99). -/
def removeAgentHolds (a : AgentId) (s : State) : State := forEach allCircuits (removeHeld fun o => o == a) s

/-- Warm reset: every HELD entry is removed, in ascending index (R101, step 1 of R26). -/
def removeAllHolds (s : State) : State := forEach allCircuits (removeHeld fun _ => true) s

/-! ## The claim (R83 to R86) -/

/-- One part of a claim (R83). -/
structure ClaimPart where
  role      : Role
  firstSlot : Nat
  width     : Nat
  path      : List PathHop
  deriving DecidableEq, Repr

/-- A claim (R83): owner, tag, hold time in seconds, allow-degraded flag, one or two parts. -/
structure Claim where
  owner         : AgentId
  tag           : BitVec 16
  holdTime      : Nat
  allowDegraded : Bool
  working       : ClaimPart
  protection    : Option ClaimPart
  deriving DecidableEq, Repr

/-- The circuit table's answer to a claim, with the state after a success (R83). -/
inductive ClaimAnswer where
  | success (handles : List Handle) (s : State)
  | conflict
  | holdRefused

/-- A link is usable in state for a search or a claim: UP, or DEGRADED where allowed (R59, R85). -/
def stateAllowed (allowDegraded : Bool) : LinkState → Bool
  | .up => true
  | .degraded => allowDegraded
  | .holddown | .down | .stale => false

/-- The three requirements of R85 for one link of a part. -/
def claimLinkOk (s : State) (allowDegraded : Bool) (part : ClaimPart) (h : PathHop) : Bool :=
  match s.linkAt h.index with
  | some r => r.key == h.key && stateAllowed allowDegraded r.state && rangeFree r.channels part.firstSlot part.width
  | none => false

/-- Every link of a part passes (R85). -/
def claimPartOk (s : State) (allowDegraded : Bool) (part : ClaimPart) : Bool :=
  part.path.all (claimLinkOk s allowDegraded part)

/-- The free indexes, lowest first. -/
def State.freeCircuits (s : State) : List CircuitNo := allCircuits.filter fun c => (s.circuit c).isNone

/-- One new entry at a free index: sequence raised, entry filled, slots HELD (R86 steps 2 and 3). -/
def allocate (q : Claim) (part : ClaimPart) (partner : Option CircuitNo) (c : CircuitNo) (s : State) : State :=
  let s1 := { s with sequences := s.sequences.set c (s.sequence c + 1) }
  let s2 := s1.setCircuit c (some
    { state := .held, owner := q.owner, tag := q.tag, firstSlot := part.firstSlot, width := part.width,
      path := part.path, partner := partner, role := part.role, hold := some (q.holdTime * 1000), affected := false })
  writePath part.firstSlot part.width (.held c) part.path s2

/-- The claim: room first (R84), then every link, working part first (R85), then the entries (R86). -/
def claim (q : Claim) (s : State) : ClaimAnswer :=
  match q.protection, s.freeCircuits with
  | none, a :: _ =>
    if claimPartOk s q.allowDegraded q.working then
      let s1 := allocate q q.working none a s
      .success [s1.handle a] s1
    else .conflict
  | some part, a :: b :: _ =>
    if claimPartOk s q.allowDegraded q.working && claimPartOk s q.allowDegraded part then
      let s1 := allocate q part (some a) b (allocate q q.working (some b) a s)
      .success [s1.handle a, s1.handle b] s1
    else .conflict
  | _, _ => .holdRefused

/-! ## Commands -/

/-- The entry a handle names for the sending agent, or the completion that refuses it (R81). -/
def checkHandle (a : AgentId) (index sequence : Byte) (s : State) : Except Completion (CircuitNo × Circuit) :=
  if h : index.toNat < 64 then
    let c : CircuitNo := ⟨index.toNat, h⟩
    match s.circuit c with
    | none => .error .noEntry
    | some e =>
      if s.sequence c ≠ sequence then .error .noEntry
      else if e.owner ≠ a then .error .notOwner
      else .ok (c, e)
  else .error .badField

/-- A HELD entry becomes LIT (R88). -/
def lightCircuit (c : CircuitNo) (e : Circuit) (s : State) : State :=
  writePath e.firstSlot e.width (.lit c) e.path (s.setCircuit c (some { e with state := .lit, hold := none }))

/-- COMMIT (R81, R88). -/
def circuitCommit (t : Ticket) (index sequence : Byte) (s : State) : State :=
  match checkHandle t.port index sequence s with
  | .error code => answer t code .empty s
  | .ok (c, e) => answer t .ok .empty (if e.state = .held then lightCircuit c e s else s)

/-- RELEASE (R81, R90): the OK is placed before the notices of the removal. -/
def circuitRelease (t : Ticket) (index sequence : Byte) (s : State) : State :=
  match checkHandle t.port index sequence s with
  | .error code => answer t code .empty s
  | .ok (c, e) => removeCircuit c e (answer t .ok .empty s)

/-- QUERY CIRCUIT (R98). -/
def circuitQuery (t : Ticket) (index : Byte) (s : State) : State :=
  if h : index.toNat < 64 then
    let c : CircuitNo := ⟨index.toNat, h⟩
    match s.circuit c with
    | none => answer t .noEntry (.sequence (s.sequence c)) s
    | some e => answer t .ok (.circuit (s.handle c) e (e.partner.map s.handle)) s
  else answer t .badField .empty s

/-- The HOLD EXPIRED notice of an entry, as it stands (R97). -/
def holdNotice (s : State) (c : CircuitNo) (e : Circuit) : Notice :=
  .holdExpired (s.handle c) e.tag e.role e.firstSlot e.width (e.partner.map s.handle)

/-- Expiry of a hold timer (R92): HOLD EXPIRED is offered before the LINK CHANGED notices of the removal (R91). -/
def holdExpired (c : CircuitNo) (s : State) : State :=
  match s.circuit c with
  | some e =>
    if e.state = .held ∧ e.hold.isSome then removeCircuit c e (offerTo e.owner (holdNotice s c e) s) else s
  | none => s

end Sys2Proof.Machine
end

