-- ==== Sys2Proof/Machine/Path.lean ====
section
/-! DEFINITION. The path engine (chapter 3): class table, admission, request arbiter, search, policies and diversity, claim and
report, cancellation, port loss and warm reset. -/

namespace Sys2Proof.Machine

/-! ## Class table (R47, R48) -/

/-- SET CLASS (R48). -/
def engineSetClass (t : Ticket) (cls : Byte) (threshold : IfField) (s : State) : State :=
  if h : cls.toNat < 8 then
    if figLegal threshold then
      offerAll (.classChanged ⟨cls.toNat, h⟩ threshold t.port)
        (answer t .ok .empty { s with classes := s.classes.set cls.toNat ⟨threshold, some t.port⟩ })
    else answer t .badField .empty s
  else answer t .badField .empty s

/-! ## Results (R70, R71) -/

/-- The ticket of a request's one response. -/
def Request.ticket (q : Request) (p : AgentId) : Ticket := ⟨p, q.slot, q.ref, 6⟩

/-- A path as reported: channel, keys, totals (R70). -/
def pathBlock (x : FoundPath) : PathBlock :=
  { channel := x.candidate, keys := x.links.map (·.key), cost := x.cost, delay := x.delay, noise := x.noise, hops := x.hops }

/-- A result with no path: the tag, and the holds and retry count of the request (R73, R74). -/
def bareResult (q : Request) : PathResult :=
  { tag := q.tag, staleTopology := false, overflow := q.overflow, illegalSkipped := q.illegalSkipped, retries := q.retries,
    working := none, protection := none, handles := [] }

/-- STALE_TOPOLOGY (R71). -/
def staleTopology (s : State) (q : Request) : Bool :=
  match q.captured with
  | some g => g != s.generation
  | none => false

/-- The result of the REPORT stage (R70). -/
def reportResult (s : State) (q : Request) (working protection : Option FoundPath) (handles : List Handle) : PathResult :=
  { bareResult q with
    staleTopology := staleTopology s q, working := working.map pathBlock, protection := protection.map pathBlock
    handles := handles }

/-! ## Request arbiter and ADMIT (R53, R54, R55) -/

/-- The candidate list of a request, in search order (R55). -/
def candidates (q : Request) : List Nat :=
  let low := match q.channel with
    | some c => [c]
    | none => List.range (if q.width = 1 then 96 else 48)
  match q.direction with
  | .lowFirst => low
  | .highFirst => low.reverse

/-- The label at the source of a search (R56). Its node index takes part in no comparison that matters: the
source is alone in the frontier (DEDUCED, log entry 17). -/
def sourceLabel (s : State) (q : Request) : Label :=
  { node := q.source, index := ((s.nodeById q.source).map (·.index)).getD 0, cost := 0, hops := 0, noise := 0, delay := 0,
    pred := none }

/-- Start a search afresh on a candidate (R56). -/
def startSearch (s : State) (run : Running) (c : Nat) (rest : List Nat) : Running :=
  { run with candidate := c, remaining := rest, frontier := [sourceLabel s run.req], settled := [] }

/-- A request that has just become RUNNING, before its first search. -/
def freshRun (p : AgentId) (q : Request) : Running :=
  { port := p, req := q, stage := .working, candidate := 0, remaining := [], frontier := [], settled := [], protecting := none,
    workRemaining := [], ranking := [], firstWorking := none }

/-- The first working search of a request (R54 step 3). -/
def firstSearch (s : State) (run : Running) : Running :=
  match candidates run.req with
  | c :: cs => startSearch s run c cs
  | [] => run

/-- The ports in rotation, from the one after the last-served port (R53). -/
def rotation (last : AgentId) : List AgentId := [last + 1, last + 2, last + 3, last]

/-- The first port in rotation with a QUEUED record (R53). -/
def nextPort (s : State) : Option AgentId := (rotation s.lastServed).find? fun p => !(s.queuedOf p).isEmpty

/-- Both end points of a request are in the node table (R54). -/
def endpointsPresent (s : State) (q : Request) : Bool := (s.nodeById q.source).isSome && (s.nodeById q.destination).isSome

/-- The arbiter and the ADMIT stage (R53, R54). A request that ADMIT reports with NO_ENTRY leaves the engine
free, on which the arbiter acts again; `n` bounds how often. -/
def arbitrate : Nat → State → State
  | 0, s => s
  | n + 1, s =>
    match s.running, nextPort s with
    | none, some p =>
      match s.queuedOf p with
      | [] => s
      | q :: rest =>
        let s1 := { s.setQueued p rest with lastServed := p }
        if endpointsPresent s1 q then
          let run := freshRun p { q with captured := some s1.generation }
          { s1 with running := some (firstSearch s1 run) }
        else arbitrate n (answer (q.ticket p) .noEntry (.path (reportResult s1 q none none [])) s1)
    | _, _ => s

/-- How many requests are QUEUED in the whole part. -/
def totalQueued (s : State) : Nat := (allAgents.map fun p => (s.queuedOf p).length).sum

/-- The request arbiter acts (R53). -/
def runArbiter (s : State) : State := arbitrate (totalQueued s + 1) s

/-! ## Admission (R49, R50) -/

/-- The width of a channel in a port's grid (R50). -/
def gridWidth : Option Grid → Nat
  | some .g100 => 2
  | _ => 1

/-- Every enumerated field carries a listed value (check 3 of R49). -/
def enumsListed (p : PathParams) : Bool :=
  [p.constraintKind, p.direction, p.policy, p.diversity, p.hold, p.arithmetic].all (fun b => b.toNat ≤ 1) &&
  p.exclusions.all fun e => match e with
    | .unknown _ => false
    | _ => true

/-- An exclusion entry is malformed (check 7 of R49). -/
def exclusionBad : ExclusionEntry → Bool
  | .node id => id == 0
  | .link k => k.fromNode == 0 || k.toNode == 0 || k.fromNode == k.toNode
  | .srlg id => id == 0
  | .unknown _ => true

/-- A NODE exclusion names the source or the destination (check 8 of R49). -/
def excludesEnd (p : PathParams) : ExclusionEntry → Bool
  | .node id => id == p.source || id == p.destination
  | _ => false

/-- The checks of R49 in order: the completion of the first that fails. -/
def admissionRefusal (s : State) (a : AgentId) (p : PathParams) : Option Completion :=
  let width := gridWidth (s.port a).grid
  if s.localId = 0 then some .notReady
  else if 7 < p.cls.toNat then some .badField
  else if !enumsListed p then some .badField
  else if 8 < p.exclusions.length then some .badField
  else if p.constraintKind = 1 ∧ 96 ≤ p.channel.toNat * width then some .badField
  else if p.source = 0 ∨ p.destination = 0 ∨ p.source = p.destination then some .badField
  else if p.exclusions.any exclusionBad then some .badField
  else if p.exclusions.any (excludesEnd p) then some .badField
  else if (s.nodeById p.source).isNone ∨ (s.nodeById p.destination).isNone then some .noEntry
  else if (s.pendingList a).any (fun q => q.tag == p.tag) then some .duplicateTag
  else if Config.pendingCapacity ≤ (s.pendingList a).length then some .busy
  else none

/-- The admitted form of a listed exclusion entry. -/
def exclusionOf : ExclusionEntry → Option Exclusion
  | .node id => some (.node id)
  | .link k => some (.link k)
  | .srlg id => some (.srlg id)
  | .unknown _ => none

/-- Max hops as clamped (R50 step 1). -/
def clampHops (n : Nat) : Nat := if n = 0 ∨ 16 < n then 16 else n

/-- Hold time as clamped, in seconds (R50 step 2). -/
def clampHold (n : Nat) : Nat := if n = 0 then 10 else if 120 < n then 120 else n

/-- The record of an admitted request (R50 steps 1 to 5). -/
def requestOf (s : State) (t : Ticket) (p : PathParams) : Request :=
  let cls : Fin 8 := ⟨p.cls.toNat % 8, Nat.mod_lt _ (by decide)⟩
  { ref := t.ref, slot := t.slot, tag := p.tag, source := p.source, destination := p.destination, cls := cls
    threshold := (s.classes[cls]).threshold
    width := gridWidth (s.port t.port).grid
    channel := if p.constraintKind = 0 then none else some p.channel.toNat
    direction := if p.direction = 0 then .lowFirst else .highFirst
    policy := if p.policy = 0 then .firstFit else .bestFit
    maxHops := clampHops p.maxHops.toNat
    delayBound := p.delayBound.toNat
    allowDegraded := p.allowDegraded
    exclusions := p.exclusions.filterMap exclusionOf
    diversity := if p.diversity = 0 then .none else .pair
    hold := if p.hold = 0 then .none else .hold
    holdTime := clampHold p.holdTime.toNat
    arithmetic := if p.arithmetic = 0 then .tolerant else .strict
    overflow := false, illegalSkipped := false, retries := 0, captured := none }

/-- The result of a request refused at admission: the tag and no path (R49, Table 10-10). -/
def refusedResult (tag : BitVec 16) : PathResult :=
  { tag := tag, staleTopology := false, overflow := false, illegalSkipped := false, retries := 0, working := none,
    protection := none, handles := [] }

/-- PATH REQUEST (R49, R50); the arbiter acts within the admission (R53). -/
def enginePathRequest (t : Ticket) (p : PathParams) (s : State) : State :=
  match admissionRefusal s t.port p with
  | some code => answer t code (.path (refusedResult p.tag)) s
  | none => runArbiter (s.setQueued t.port (s.queuedOf t.port ++ [requestOf s t p]))

/-! ## One link at relaxation (R42 to R45, R59, R62, R64) -/

/-- The request's own exclusion list refuses the link (R62). -/
def excludedBy (q : Request) (r : LinkRecord) : Bool :=
  q.exclusions.any fun e => match e with
    | .link k => k == r.key
    | .srlg id => r.srlg.contains id
    | .node id => id == r.key.toNode

/-- The intermediate nodes of a path: the to-nodes of all its links but the last (R64). -/
def intermediateNodes (w : FoundPath) : List NodeId := (w.links.map fun l => l.key.toNode).dropLast

/-- The working path a protection search protects refuses the link (R64). -/
def excludedByWorking (w : FoundPath) (r : LinkRecord) : Bool :=
  w.links.any (fun l => l.key == r.key) ||
  w.links.any (fun l => l.key.fromNode == r.key.toNode && l.key.toNode == r.key.fromNode) ||
  w.links.any (fun l => l.srlg.any fun id => r.srlg.contains id) ||
  (intermediateNodes w).contains r.key.toNode

/-- The tests of R59 that use no arithmetic. -/
def plainTests (run : Running) (r : LinkRecord) : Bool :=
  stateAllowed run.req.allowDegraded r.state &&
  !(excludedBy run.req r) &&
  !(run.protecting.any fun w => excludedByWorking w r) &&
  rangeInMask r.capability (run.candidate * run.req.width) run.req.width &&
  rangeFree r.channels (run.candidate * run.req.width) run.req.width

/-- The outcome of the arithmetic steps for one link (R42): refused, or the noise and delay of the candidate
label, or the end of the request (R44). -/
inductive ArithVerdict where
  | refused
  | abort
  | passes (noise : IfField) (delay : Nat)
  deriving DecidableEq, Repr

/-- A verdict with the holds it sets (R43). -/
structure ArithOutcome where
  verdict  : ArithVerdict
  overflow : Bool
  illegal  : Bool
  deriving DecidableEq, Repr

/-- The hops and delay steps (R42 steps 3 and 4, R45), after the noise step gave `noise` with `ovf`. -/
def hopsAndDelay (q : Request) (l : Label) (r : LinkRecord) (noise : IfField) (ovf : Bool) : ArithOutcome :=
  if q.maxHops < l.hops + 1 then ⟨.refused, ovf, false⟩
  else
    let d := l.delay + r.delay.toNat
    let sat := decide (Config.maxDelay < d)
    let d' := min d Config.maxDelay
    if sat && q.arithmetic == .strict then ⟨.abort, false, false⟩
    else if q.delayBound ≠ 0 ∧ q.delayBound < d' then ⟨.refused, ovf || sat, false⟩
    else ⟨.passes noise d', ovf || sat, false⟩

/-- The arithmetic steps of R42 under the request's mode (R43, R44). -/
def arithSteps (q : Request) (l : Label) (r : LinkRecord) : ArithOutcome :=
  if r.illegalNoise then
    if q.arithmetic = .strict then ⟨.abort, false, false⟩ else ⟨.refused, false, true⟩
  else
    let x := figAdd l.noise r.noise
    if x.2.overflow && q.arithmetic == .strict then ⟨.abort, false, false⟩
    else if !figCompare x.1 q.threshold then ⟨.refused, x.2.overflow, false⟩
    else hopsAndDelay q l r x.1 x.2.overflow

/-- The candidate label of a link that passes (R59). -/
def extendLabel (s : State) (l : Label) (r : LinkRecord) (noise : IfField) (delay : Nat) : Label :=
  { node := r.key.toNode, index := ((s.nodeById r.key.toNode).map (·.index)).getD 0, cost := l.cost + r.cost.toNat
    hops := l.hops + 1, noise := noise, delay := delay
    pred := some ⟨l.node, l.index, ⟨r.index, r.key, r.srlg⟩⟩ }

/-- A candidate label is offered to the frontier (the table of R60). -/
def offerLabel (frontier : List Label) (x : Label) : List Label :=
  match frontier.find? fun l => l.node = x.node with
  | none => if frontier.length < Config.searchCapacity then frontier ++ [x] else frontier
  | some l =>
    if x.cost < l.cost ∨ (x.cost = l.cost ∧ x.hops < l.hops) then
      frontier.map fun y => if y.node = x.node then x else y
    else frontier

/-- Relax one outgoing link of the settled label (R58, R59): none where the request ends with ARITH_ABORT. -/
def relaxLink (s : State) (l : Label) (run : Running) (e : Nat × LinkKey) : Option Running :=
  match s.linkAt e.1 with
  | none => some run
  | some r =>
    if r.key ≠ e.2 then some run
    else if run.settled.any (fun x => x.node == r.key.toNode) then some run
    else if !plainTests run r then some run
    else
      let o := arithSteps run.req l r
      let run1 := { run with req := { run.req with
        overflow := run.req.overflow || o.overflow, illegalSkipped := run.req.illegalSkipped || o.illegal } }
      match o.verdict with
      | .abort => none
      | .refused => some run1
      | .passes noise delay => some { run1 with frontier := offerLabel run.frontier (extendLabel s l r noise delay) }

/-- Relax the outgoing links of a settled label in ascending index (R58). -/
def relaxAll (s : State) (l : Label) : List (Nat × LinkKey) → Running → Option Running
  | [], run => some run
  | e :: es, run =>
    match relaxLink s l run e with
    | some run1 => relaxAll s l es run1
    | none => none

/-! ## Found paths (R61, R67) -/

/-- Follow the predecessors of a label back to the source (R61), at most `n` links. -/
def tracePath (settled : List Label) : Nat → Label → List PathLink → List PathLink
  | 0, _, acc => acc
  | n + 1, l, acc =>
    match l.pred with
    | none => acc
    | some p =>
      match settled.find? fun x => x.node = p.node with
      | some x => tracePath settled n x (p.link :: acc)
      | none => p.link :: acc

/-- The path of a settled destination label, with its totals (R61, R45). -/
def foundPath (run : Running) (l : Label) : FoundPath :=
  { candidate := run.candidate, links := tracePath run.settled l.hops l [], cost := l.cost, hops := l.hops, noise := l.noise,
    delay := l.delay }

/-- `a` ranks before `b`, where `b` was found on an earlier candidate (R67). -/
def ranksBefore (a b : FoundPath) : Bool :=
  a.cost < b.cost || (a.cost == b.cost && a.noise != b.noise && figCompare a.noise b.noise)

/-- Add an entry found on a later candidate to the ranking (R67). -/
def addRanked (x : FoundPath) : List FoundPath → List FoundPath
  | [] => [x]
  | y :: ys => if ranksBefore x y then x :: y :: ys else y :: addRanked x ys

/-! ## Report and claim (R63, R66, R68, R70) -/

/-- REPORT: the result fills the reserved slot, the record and its search end, and the arbiter acts (R70). -/
def report (run : Running) (code : Completion) (working protection : Option FoundPath) (handles : List Handle)
    (s : State) : State :=
  runArbiter (answer (run.req.ticket run.port) code (.path (reportResult s run.req working protection handles))
    { s with running := none })

/-- The completion when candidates or ranking are used up (the table of R63, R66). -/
def reportExhausted (run : Running) (s : State) : State :=
  if 0 < run.req.retries then report run .conflict none none [] s
  else if run.req.diversity = .pair ∧ run.firstWorking.isSome then report run .noDiverse run.firstWorking none [] s
  else report run .noPath none none [] s

/-- One part of a claim for a found path (R68). -/
def claimPart (q : Request) (role : Role) (x : FoundPath) : ClaimPart :=
  { role := role, firstSlot := x.candidate * q.width, width := q.width, path := x.links.map fun l => ⟨l.index, l.key⟩ }

/-- The claim for a working path and, for PAIR, its protection path (R68). -/
def claimFor (run : Running) (w : FoundPath) (p : Option FoundPath) : Claim :=
  { owner := run.port, tag := run.req.tag, holdTime := run.req.holdTime, allowDegraded := run.req.allowDegraded
    working := claimPart run.req .working w, protection := p.map (claimPart run.req .protection) }

/-- One more conflict retry, saturating at 255 (R68). -/
def countConflict (run : Running) : Running := { run with req := { run.req with retries := min (run.req.retries + 1) 255 } }

/-- The paths of a request are known: OK without a hold, or the claim and what follows it (R63, R67, R68). After a
CONFLICT the engine goes on with `next`. -/
def settlePaths (run : Running) (w : FoundPath) (p : Option FoundPath) (next : Running → State → State) (s : State) :
    State :=
  match run.req.hold with
  | .none => report run .ok (some w) p [] s
  | .hold =>
    match claim (claimFor run w p) s with
    | .success handles s1 => report run .ok (some w) p handles s1
    | .holdRefused => report run .holdRefused (some w) p [] s
    | .conflict => next (countConflict run) s

/-- The protection search for a working path starts, on the first candidate (R65). -/
def startProtection (s : State) (run : Running) (w : FoundPath) : Running :=
  firstSearch s { run with stage := .protection, protecting := some w, workRemaining := run.remaining }

/-- The ranked entries are taken in order (R67): claims until one does not conflict, or the protection search of
the first; the claims follow one another within the event (DEDUCED, log entry 19). -/
def takeRanked : List FoundPath → Running → State → State
  | [], run, s => reportExhausted run s
  | w :: ws, run, s =>
    match run.req.diversity with
    | .pair => { s with running := some (startProtection s { run with ranking := ws } w) }
    | .none => settlePaths run w none (takeRanked ws) s

/-- The working search goes to the next candidate, or ends (R63, R67). -/
def nextWorking (cands : List Nat) (run : Running) (s : State) : State :=
  let run0 := { run with stage := .working, protecting := none, workRemaining := [] }
  match cands with
  | c :: cs => { s with running := some (startSearch s run0 c cs) }
  | [] =>
    match run.req.policy with
    | .firstFit => reportExhausted run0 s
    | .bestFit => takeRanked run.ranking { run0 with firstWorking := run.ranking.head? } s

/-- From a protection search back to the working list (R65). -/
def backToWorking (run : Running) (s : State) : State :=
  match run.req.policy with
  | .firstFit => nextWorking run.workRemaining run s
  | .bestFit => takeRanked run.ranking { run with stage := .working, protecting := none, workRemaining := [] } s

/-- A search ended with no path on its candidate (R57, R63, R65). -/
def searchFailed (run : Running) (s : State) : State :=
  match run.stage with
  | .working => nextWorking run.remaining run s
  | .protection =>
    match run.remaining with
    | c :: cs => { s with running := some (startSearch s run c cs) }
    | [] => backToWorking run s

/-- A search found a path (R57, R63, R65, R67). -/
def searchFound (run : Running) (x : FoundPath) (s : State) : State :=
  match run.stage with
  | .protection =>
    match run.protecting with
    | some w => settlePaths run w (some x) backToWorking s
    | none => searchFailed run s
  | .working =>
    match run.req.policy with
    | .bestFit => nextWorking run.remaining { run with ranking := addRanked x run.ranking } s
    | .firstFit =>
      let run1 := { run with firstWorking := run.firstWorking <|> some x }
      match run.req.diversity with
      | .none => settlePaths run1 x none (fun r => nextWorking r.remaining r) s
      | .pair => { s with running := some (startProtection s run1 x) }

/-! ## The settling step (R57) -/

/-- One label is less than another (R57). -/
def labelLess (a b : Label) : Bool :=
  a.cost < b.cost || (a.cost == b.cost && (a.hops < b.hops || (a.hops == b.hops &&
    (a.index < b.index || (a.index == b.index && a.node.toNat < b.node.toNat)))))

/-- The least label of a frontier (R57). -/
def leastLabel : List Label → Option Label
  | [] => none
  | x :: xs =>
    match leastLabel xs with
    | none => some x
    | some y => if labelLess y x then some y else some x

/-- The least label `l` leaves the frontier and is settled (R57). -/
def settleLabel (run : Running) (l : Label) : Running :=
  { run with frontier := run.frontier.filter fun x => x.node ≠ l.node, settled := l :: run.settled }

/-- One settling step of the running search (R57, R58); none runs where the engine is free. -/
def settlingStep (s : State) : State :=
  match s.running with
  | none => s
  | some run =>
    match leastLabel run.frontier with
    | none => searchFailed run s
    | some l =>
      let run1 := settleLabel run l
      if l.node = run.req.destination then searchFound run1 (foundPath run1 l) s
      else if Config.searchCapacity ≤ run1.settled.length then searchFailed run1 s
      else
        match relaxAll s l (s.outgoing l.node) run1 with
        | some run2 => { s with running := some run2 }
        | none => report run1 .arithAbort none none [] s

/-! ## Cancellation, port loss, warm reset (R72 to R77) -/

/-- The CANCELLED response of a request (R73, R74). -/
def cancelled (p : AgentId) (q : Request) (s : State) : State :=
  answer (q.ticket p) .cancelled (.path (bareResult q)) s

/-- A PATH CANCEL that finds no RUNNING record with its tag: a QUEUED one, or none (R72, R73). -/
def cancelQueued (t : Ticket) (tag : BitVec 16) (s : State) : State :=
  match (s.queuedOf t.port).find? fun q => q.tag = tag with
  | some q =>
    answer t .ok .empty
      (cancelled t.port q (s.setQueued t.port ((s.queuedOf t.port).filter fun x => x.tag ≠ tag)))
  | none => answer t .noEntry .empty s

/-- PATH CANCEL (R72 to R75). -/
def enginePathCancel (t : Ticket) (tag : BitVec 16) (s : State) : State :=
  match s.running with
  | some run =>
    if run.port = t.port ∧ run.req.tag = tag then
      runArbiter (answer t .ok .empty (cancelled t.port run.req { s with running := none }))
    else cancelQueued t tag s
  | none => cancelQueued t tag s

/-- The port left ACTIVE: its records are removed without response, and a freed engine is handed on (R76). -/
def dropRequests (p : AgentId) (s : State) : State :=
  let s1 := s.setQueued p []
  match s.running with
  | some run => if run.port = p then runArbiter { s1 with running := none } else s1
  | none => s1

/-- Warm reset (R77). -/
def engineWarmReset (s : State) : State :=
  { s with running := none, queued := Vector.replicate 4 [], lastServed := 3 }

end Sys2Proof.Machine
end

