-- ==== Sys2Proof/Machine/Ports.lean ====
section
/-! DEFINITION. The agent port controllers (chapter 7) with the notice unit's command and resets: dispatch and take, frames received,
bring-up, output, port reset. -/

namespace Sys2Proof.Machine

/-- Change a port record in place. -/
def modifyPort (p : AgentId) (f : Port → Port) (s : State) : State := s.setPort p (f (s.port p))

/-! ## SET FILTER (R173) -/

/-- SET FILTER (R173). -/
def noticeSetFilter (t : Ticket) (entries : List FilterEntry) (mask : DegreeMask) (s : State) : State :=
  if 4 < entries.length then answer t .badField .empty s
  else answer t .ok .empty (modifyPort t.port (fun x => { x with filter := entries, subscription := mask }) s)

/-! ## Dispatch and take (R154, R155) -/

/-- A well-formed command is passed to its owner (Table 7-3). -/
def passToOwner (t : Ticket) (c : AgentCommand) (s : State) : State :=
  match c with
  | .advertiseLink p => storeAdvertise t p s
  | .withdrawLink k => storeWithdraw t k s
  | .queryLink k => storeQuery t k s
  | .listLinks i => storeList t i s
  | .setLocal id => storeSetLocal t id s
  | .pathRequest p => enginePathRequest t p s
  | .pathCancel tag => enginePathCancel t tag s
  | .setClass cls threshold => engineSetClass t cls threshold s
  | .commit i q => circuitCommit t i q s
  | .release i q => circuitRelease t i q s
  | .queryCircuit i => circuitQuery t i s
  | .setDegree d p => degreeSet t d p s
  | .discover d => degreeDiscover t d s
  | .queryDegree d => degreeQuery t d s
  | .loadCounter d c v => degreeLoadCounter t d c v s
  | .setFilter es m => noticeSetFilter t es m s

/-- The reference and kind a queued command's response carries (R155). -/
def QueuedCommand.label : QueuedCommand → BitVec 16 × Byte
  | .malformed ref kind => (ref, kind)
  | .wellFormed ref c => (ref, commandCode c)

/-- Steps 1 and 2 of R154 on the port: the head leaves the queue, slot `k` is reserved for it, and one credit is
returned with a CREDIT frame. -/
def Port.takeHead (x : Port) (c : QueuedCommand) (rest : List QueuedCommand) (k : SlotNo) : Port :=
  { x with
    queue := rest, slots := x.slots.set k (.reserved c.label.1 c.label.2), credits := x.credits + 1
    linkFrames := x.linkFrames ++ [.credit] }

/-- Step 3 of R154: BAD_FIELD for a malformed command, without contents (DEDUCED, log entry 12), or the
owner (R155). -/
def dispatch (p : AgentId) (c : QueuedCommand) (k : SlotNo) (s : State) : State :=
  match c with
  | .malformed ref kind => answer ⟨p, k, ref, kind⟩ .badField .empty s
  | .wellFormed ref cmd => passToOwner ⟨p, k, ref, commandCode cmd⟩ cmd s

/-- The take of the command at the head of a port's queue, where one can be taken (R154). -/
def takeOne (p : AgentId) (s : State) : State :=
  let x := s.port p
  match x.state, x.queue, x.freeSlot with
  | .active, c :: rest, some k => dispatch p c k (s.setPort p (x.takeHead c rest k))
  | _, _, _ => s

/-- `n` takes, one after another. -/
def takeMany (p : AgentId) : Nat → State → State
  | 0, s => s
  | n + 1, s => takeMany p n (takeOne p s)

/-- As many takes as there are queued commands and free slots (R154). -/
def takeAll (p : AgentId) (s : State) : State := takeMany p (s.port p).queue.length s

/-! ## Port reset (R162) -/

/-- Steps 1 to 3 of R162 on the port record: queues, slots, link frames, credits, grid and the notice unit's items are
cleared. The link status and the protocol error count are kept. -/
def Port.cleared (x : Port) (st : PortState) : Port :=
  { x with
    state := st, grid := none, credits := 0, queue := [], slots := Vector.replicate 8 .free, responseCredit := .absent
    linkFrames := [], notices := [], lost := 0, filter := [], subscription := 0, moment := 0 }

/-- A port reset in the order of R162; the port is left in `st`. -/
def portReset (p : AgentId) (st : PortState) (s : State) : State :=
  staleAgent p (removeAgentHolds p (dropRequests p (modifyPort p (fun x => x.cleared st) s)))

/-! ## Link frames waiting (R159) -/

/-- An INIT placed while another waits replaces it in its place; otherwise it joins the tail. -/
def placeInit (k : InitKind) (errors : Nat) (l : List LinkFrame) : List LinkFrame :=
  let isInit : LinkFrame → Bool := fun f => match f with
    | .init _ _ => true
    | .credit => false
  if l.any isInit then l.map fun f => if isInit f then .init k errors else f else l ++ [.init k errors]

/-- The port with an INIT placed for sending, carrying the error count as it stands (R160). -/
def Port.withInit (x : Port) (k : InitKind) : Port := { x with linkFrames := placeInit k x.errors x.linkFrames }

/-! ## Bring-up (R149 to R151) -/

/-- The port enters INIT and places its opening INIT (R149). -/
def Port.opened (x : Port) : Port := { x with state := .init }.withInit .opening

/-- A DOWN port enters INIT where it is enabled, its link is up and the part is READY (R149, R164). -/
def openPort (p : AgentId) (s : State) : State :=
  if s.portEnable.getLsbD p ∧ (s.port p).linkUp ∧ (s.port p).state = .down ∧ s.loadState = .ready then
    modifyPort p Port.opened s
  else s

/-- A listed grid code (R150, Table 10-4). -/
def gridOf (c : Byte) : Option Grid := if c = 1 then some .g50 else if c = 2 then some .g100 else none

/-- The response credit an INIT declares (R158). -/
def declaredCredit (c : Byte) : ResponseCredit := if c = 0 then .unlimited else .limited c.toNat

/-- An agent INIT taken in INIT (R150). -/
def Port.takeInit (x : Port) (grid credit : Byte) (mask : DegreeMask) : Port :=
  match gridOf grid with
  | some g =>
    { x with
      state := .active, grid := some g, responseCredit := declaredCredit credit, subscription := mask, filter := []
      credits := Config.commandCredits }.withInit (.accept g)
  | none => x.withInit (.reject grid)

/-! ## Frames received (R150 to R153, R158) -/

/-- Response credit after an agent CREDIT (R158). -/
def addCredit (c : ResponseCredit) (n : Nat) : ResponseCredit :=
  match c with
  | .limited v => .limited (min (v + n) 255)
  | .unlimited => .unlimited
  | .absent => .absent

/-- A COMMAND frame in ACTIVE (R153), and the takes that can follow within the event (R154). -/
def receiveCommand (p : AgentId) (c : QueuedCommand) (s : State) : State :=
  if (s.port p).credits = 0 then modifyPort p Port.protocolError s
  else takeAll p (modifyPort p (fun x => { x with credits := x.credits - 1, queue := x.queue ++ [c] }) s)

/-- A frame arrives on an agent port, by the port's state (Table 7-2; R150 to R153, R158, R164). -/
def receiveFrame (p : AgentId) (f : AgentFrame) (s : State) : State :=
  match (s.port p).state, f with
  | .down, _ => s
  | .init, .init g c m => modifyPort p (fun x => x.takeInit g c m) s
  | .init, _ => modifyPort p Port.protocolError s
  | .active, .init g c m => modifyPort p (fun x => x.takeInit g c m) (portReset p .init s)
  | .active, .credit n => modifyPort p (fun x => { x with responseCredit := addCredit x.responseCredit n.toNat }) s
  | .active, .command c => receiveCommand p c s
  | .active, .bad => modifyPort p Port.protocolError s

/-! ## Output (R159) -/

/-- The oldest filled slot, with its response and moment. -/
def Port.oldestResponse (x : Port) : Option (SlotNo × Response × Nat) :=
  (List.finRange 8).foldl (fun best k =>
    match x.slots[k] with
    | .filled r m =>
      match best with
      | some (_, _, m') => if m < m' then some (k, r, m) else best
      | none => some (k, r, m)
    | _ => best) none

/-- The port may send a RESPONSE or NOTICE (R158). -/
def Port.hasCredit (x : Port) : Bool :=
  match x.responseCredit with
  | .unlimited => true
  | .limited n => 0 < n
  | .absent => false

/-- One unit of limited response credit is used (R158). -/
def spendCredit : ResponseCredit → ResponseCredit
  | .limited n => .limited (n - 1)
  | c => c

/-- A response leaves on the link and frees its slot (R156, R159). -/
def Port.sendResponse (x : Port) (k : SlotNo) (r : Response) : Port :=
  { x with
    slots := x.slots.set k .free, responseCredit := spendCredit x.responseCredit, sent := x.sent ++ [responseBytes r] }

/-- The head of the notice queue leaves on the link (R159, R167). -/
def Port.sendNotice (x : Port) (n : QueuedNotice) (rest : List QueuedNotice) : Port :=
  { x with notices := rest, responseCredit := spendCredit x.responseCredit, sent := x.sent ++ [noticeBytes n] }

/-- Step 2 of R159: the older of the oldest response and the oldest notice. -/
def Port.sendOldest (x : Port) : Port :=
  match x.oldestResponse, x.notices with
  | some (k, r, m), n :: rest => if m < n.moment then x.sendResponse k r else x.sendNotice n rest
  | some (k, r, _), [] => x.sendResponse k r
  | none, n :: rest => x.sendNotice n rest
  | none, [] => x

/-- The frame a port sends when its link can accept one (R159). -/
def Port.sendFrame (x : Port) : Port :=
  match x.state, x.linkFrames with
  | .down, _ => x
  | _, f :: rest => { x with linkFrames := rest, sent := x.sent ++ [linkFrameBytes f] }
  | .active, [] => if x.hasCredit then x.sendOldest else x
  | .init, [] => x

/-! ## Link status (R149, R161) -/

/-- The link of a port reports itself up (R149). -/
def linkReportsUp (p : AgentId) (s : State) : State := openPort p (modifyPort p (fun x => { x with linkUp := true }) s)

/-- The link of a port reports itself down (R161). -/
def linkReportsDown (p : AgentId) (s : State) : State :=
  let s1 := modifyPort p (fun x => { x with linkUp := false }) s
  match (s.port p).state with
  | .down => s1
  | .init => modifyPort p (fun x => { x with state := .down, linkFrames := [] }) s1
  | .active => portReset p .down s1

/-- A port at the assertion of the warm-reset line (R164). -/
def Port.warmReset (x : Port) : Port :=
  match x.state with
  | .down => x
  | .init => { x with state := .down, linkFrames := [] }
  | .active => x.cleared .down

end Sys2Proof.Machine
end

