-- ==== Sys2Proof/Machine/AgentCommands.lean ====
section
/-! DEFINITION. The sixteen agent commands. Each is a COMMAND frame that agent `a` sends with its parameters (R153): it joins the
command queue, is taken as soon as a response slot is free (R154), and its owner acts on it within the take (R155). -/

namespace Sys2Proof.Machine

/-- Agent `a` sends the command `c` with the reference `ref`. -/
def sendCommand (a : AgentId) (ref : BitVec 16) (c : AgentCommand) (s : State) : Answered :=
  .next (receiveFrame a (.command (judgeTyped ref c)) s)

/-- ADVERTISE LINK (R7 to R11; `storeAdvertise`). -/
def execAdvertiseLink (a : AgentId) (ref : BitVec 16) (p : AdvertiseParams) (s : State) : Answered :=
  sendCommand a ref (.advertiseLink p) s

/-- WITHDRAW LINK (R13; `storeWithdraw`). -/
def execWithdrawLink (a : AgentId) (ref : BitVec 16) (key : LinkKey) (s : State) : Answered :=
  sendCommand a ref (.withdrawLink key) s

/-- QUERY LINK (R24; `storeQuery`). -/
def execQueryLink (a : AgentId) (ref : BitVec 16) (key : LinkKey) (s : State) : Answered :=
  sendCommand a ref (.queryLink key) s

/-- LIST LINKS (R25; `storeList`). -/
def execListLinks (a : AgentId) (ref : BitVec 16) (start : BitVec 16) (s : State) : Answered :=
  sendCommand a ref (.listLinks start) s

/-- SET LOCAL (R4; `storeSetLocal`). -/
def execSetLocal (a : AgentId) (ref : BitVec 16) (id : NodeId) (s : State) : Answered :=
  sendCommand a ref (.setLocal id) s

/-- PATH REQUEST (R49, R50; `enginePathRequest`). -/
def execPathRequest (a : AgentId) (ref : BitVec 16) (p : PathParams) (s : State) : Answered :=
  sendCommand a ref (.pathRequest p) s

/-- PATH CANCEL (R72 to R75; `enginePathCancel`). -/
def execPathCancel (a : AgentId) (ref : BitVec 16) (tag : BitVec 16) (s : State) : Answered :=
  sendCommand a ref (.pathCancel tag) s

/-- SET CLASS (R48; `engineSetClass`). -/
def execSetClass (a : AgentId) (ref : BitVec 16) (cls : Byte) (threshold : IfField) (s : State) : Answered :=
  sendCommand a ref (.setClass cls threshold) s

/-- COMMIT (R81, R88; `circuitCommit`). -/
def execCommit (a : AgentId) (ref : BitVec 16) (index sequence : Byte) (s : State) : Answered :=
  sendCommand a ref (.commit index sequence) s

/-- RELEASE (R81, R90; `circuitRelease`). -/
def execRelease (a : AgentId) (ref : BitVec 16) (index sequence : Byte) (s : State) : Answered :=
  sendCommand a ref (.release index sequence) s

/-- QUERY CIRCUIT (R98; `circuitQuery`). -/
def execQueryCircuit (a : AgentId) (ref : BitVec 16) (index : Byte) (s : State) : Answered :=
  sendCommand a ref (.queryCircuit index) s

/-- SET DEGREE (R122, R123; `degreeSet`). -/
def execSetDegree (a : AgentId) (ref : BitVec 16) (degree : Byte) (p : DegreeParams) (s : State) : Answered :=
  sendCommand a ref (.setDegree degree p) s

/-- DISCOVER (R126; `degreeDiscover`). -/
def execDiscover (a : AgentId) (ref : BitVec 16) (degree : Byte) (s : State) : Answered :=
  sendCommand a ref (.discover degree) s

/-- QUERY DEGREE (R127; `degreeQuery`). -/
def execQueryDegree (a : AgentId) (ref : BitVec 16) (degree : Byte) (s : State) : Answered :=
  sendCommand a ref (.queryDegree degree) s

/-- LOAD COUNTER (R144; `degreeLoadCounter`). -/
def execLoadCounter (a : AgentId) (ref : BitVec 16) (degree counter value : Byte) (s : State) : Answered :=
  sendCommand a ref (.loadCounter degree counter value) s

/-- SET FILTER (R173; `noticeSetFilter`). -/
def execSetFilter (a : AgentId) (ref : BitVec 16) (entries : List FilterEntry) (mask : DegreeMask) (s : State) : Answered :=
  sendCommand a ref (.setFilter entries mask) s

end Sys2Proof.Machine
end

