-- ==== Sys2Proof/Machine/Expiries.lean ====
section
/-! DEFINITION. The expiries of the part's timers. An expiry row makes a running timer run out now; where the timer is not running
the expiry does not occur (DESIGN CHOICE, log entry 3). -/

namespace Sys2Proof.Machine

/-- HOLD_EXPIRY (R92). -/
def execHoldExpiry (c : CircuitNo) (s : State) : Answered := .next (holdExpired c s)

/-- LIFETIME_EXPIRY (R15). -/
def execLifetimeExpiry (link : Fin 1024) (s : State) : Answered := .next (lifetimeExpired link s)

/-- GRACE_EXPIRY (R16). -/
def execGraceExpiry (link : Fin 1024) (s : State) : Answered := .next (graceExpired link s)

/-- PROBE_TIMEOUT (R108). -/
def execProbeTimeout (d : DegreeNo) (s : State) : Answered := .next (probeExpired d s)

/-- KEEPALIVE_TIMEOUT (R137). -/
def execKeepaliveTimeout (d : DegreeNo) (s : State) : Answered := .next (keepaliveExpired d s)

/-- KEEPALIVE_INTERVAL_EXPIRY (R135). -/
def execKeepaliveIntervalExpiry (d : DegreeNo) (s : State) : Answered := .next (intervalExpired d s)

/-- LOSS_DECLARE_EXPIRY (R132). -/
def execLossDeclareExpiry (d : DegreeNo) (s : State) : Answered := .next (lossExpired d s)

/-- SETTLE_EXPIRY (R134). -/
def execSettleExpiry (d : DegreeNo) (s : State) : Answered := .next (settleExpired d s)

/-- HOLD_DOWN_EXPIRY (R140). -/
def execHoldDownExpiry (d : DegreeNo) (s : State) : Answered := .next (holdDownExpired d s)

end Sys2Proof.Machine
end

