-- ==== Sys2Proof/Machine/PortEvents.lean ====
section
/-! DEFINITION. The events of the agent links, and the steps of the port controllers and the path engine. -/

namespace Sys2Proof.Machine

/-- An INIT frame from the agent (R150, R151). -/
def execInit (a : AgentId) (grid credit : Byte) (mask : DegreeMask) (s : State) : Answered :=
  .next (receiveFrame a (.init grid credit mask) s)

/-- A CREDIT frame from the agent (R158, R152). -/
def execCredit (a : AgentId) (count : Byte) (s : State) : Answered := .next (receiveFrame a (.credit count) s)

/-- A COMMAND frame with this body (R153, R152); a body above the length limit fails the frame check (R183). -/
def execCommand (a : AgentId) (body : List Byte) (s : State) : Answered :=
  .next (receiveFrame a (if body.length ≤ Config.maxBody then .command (judgeBody body) else .bad) s)

/-- A frame as delivered (R183, R152). A frame that passes is taken as the frame it is (DESIGN CHOICE, log entry 20). -/
def execFrameCheckFailure (a : AgentId) (frame : List Byte) (s : State) : Answered :=
  .next (receiveFrame a (judgeFrame frame) s)

/-- TAKE (R154): every command that can be taken is taken (DEDUCED, log entry 5). -/
def execTake (a : AgentId) (s : State) : Answered := .next (takeAll a s)

/-- SEND (R159), and the takes that a freed slot allows within the event (R154, R156). -/
def execSend (a : AgentId) (s : State) : Answered := .next (takeAll a (modifyPort a Port.sendFrame s))

/-- LINK_UP (R149). -/
def execLinkUp (a : AgentId) (s : State) : Answered := .next (linkReportsUp a s)

/-- LINK_DOWN (R161, R162). -/
def execLinkDown (a : AgentId) (s : State) : Answered := .next (linkReportsDown a s)

/-- REQUEST_ARBITER (R53, R54). -/
def execRequestArbiter (s : State) : Answered := .next (runArbiter s)

/-- SETTLING_STEP (R57 to R71). -/
def execSettlingStep (s : State) : Answered := .next (settlingStep s)

end Sys2Proof.Machine
end

