-- ==== Sys2Proof/Machine/ScEvents.lean ====
section
/-! DEFINITION. The events of the supervisory-channel ports. -/

namespace Sys2Proof.Machine

/-- The probe that a port holds is sent and its 250 ms timer starts; with a KEEPALIVE the interval timer restarts
(R106, R135, R188). -/
def sendProbe (d : DegreeNo) (s : State) : State :=
  let x := s.degree d
  match x.outstanding, x.probeTimer with
  | some p, none =>
    let s1 := s.setDegree d { x with
      probeTimer := some Config.probeMs
      intervalTimer := if p = .keepalive then some Config.keepaliveMs else x.intervalTimer }
    { s1 with probesSent := s1.probesSent.set d (s1.probesSent[d] ++ [probeBytes s1.localId d p]) }
  | _, _ => s

/-- PROBE_SEND (R106). -/
def execProbeSend (d : DegreeNo) (s : State) : Answered := .next (sendProbe d s)

/-- IDENT_ANSWER (R107, R111); contents that no frame can carry fail the frame check (R188). -/
def execIdentAnswer (d : DegreeNo) (x : IdentContents) (s : State) : Answered :=
  .next (receiveAnswer d (if x.wellFormed then some (.ident x) else none) s)

/-- CHAIN_ANSWER (R107, R112); contents that no frame can carry fail the frame check (R188). -/
def execChainAnswer (d : DegreeNo) (batch : Byte) (sites : List SiteRecord) (more : Bool) (s : State) : Answered :=
  .next (receiveAnswer d (if chainWellFormed sites then some (.chain batch sites more) else none) s)

/-- KEEPALIVE_ANSWER (R107, R136). -/
def execKeepaliveAnswer (d : DegreeNo) (error : Bool) (occupied : SlotMask) (s : State) : Answered :=
  .next (receiveAnswer d (some (.keepalive error occupied)) s)

/-- ERRORED_ANSWER: a frame as delivered (R107, R188). One that passes the tests is taken as the answer it is
(DESIGN CHOICE, log entry 20). -/
def execErroredAnswer (d : DegreeNo) (frame : List Byte) (s : State) : Answered :=
  .next (receiveAnswer d (judgeAnswer frame) s)

/-- CARRIER_CHANGE (R130). -/
def execCarrierChange (d : DegreeNo) (x : Carrier) (s : State) : Answered := .next (carrierReported d x s)

end Sys2Proof.Machine
end

