-- ==== Sys2Proof/Machine/Startup.lean ====
section
/-! DEFINITION. Start-up, the configuration and the warm-reset line (chapter 9). -/

namespace Sys2Proof.Machine

/-- Power-on: every block at its power-on state, LOADING (R176). What is not the part's own is kept: the commands that
wait, the levels of the warm-reset line and of the carriers outside, and the frames already sent (DESIGN CHOICE, log entry 7). -/
def powerOn (s : State) : State :=
  { State.reset with
    pending := s.pending
    warmAsserted := s.warmAsserted
    degrees := Vector.ofFn fun d => { Degree.powerOn with lineCarrier := (s.degree d).lineCarrier }
    ports := Vector.ofFn fun p => { Port.powerOn with sent := (s.port p).sent }
    probesSent := s.probesSent }

/-- The configuration is written into its owners (R178 steps 1 to 3). -/
def writeConfiguration (c : Configuration) (s : State) : State :=
  let s1 := if c.localId = 0 then s else placeLocal c.localId s
  { s1 with
    degrees := Vector.ofFn fun d => { s1.degree d with config := c.degrees[d], triesRemaining := c.degrees[d].tries }
    portEnable := c.portEnable }

/-- The entry to READY after power-on (R179). -/
def enterReady (s : State) : State :=
  forEach allDegrees degreeReady (forEach allAgents openPort { s with loadState := .ready })

/-- The end of the configuration read (R178, R181); the loader makes one read, in LOADING. -/
def applyConfiguration (acknowledged : List Byte) (s : State) : State :=
  if s.loadState = .loading then
    let s1 := writeConfiguration (configurationOf acknowledged) s
    if s.warmAsserted then { s1 with loadState := .resetFromLoading } else enterReady s1
  else s

/-- The actions of the blocks at the assertion in READY (Table 9-2): ports and notice unit, path engine, circuit table,
topology store, degree controllers. -/
def assertWarmReset (s : State) : State :=
  let s1 := { s with loadState := .resetFromReady, ports := Vector.ofFn fun p => (s.port p).warmReset }
  forEach allDegrees degreeWarmReset (warmResetStore (removeAllHolds (engineWarmReset s1)))

/-- The warm-reset line is asserted (R181). -/
def warmAssertion (s : State) : State :=
  let s1 := { s with warmAsserted := true }
  match s.loadState with
  | .ready => assertWarmReset s1
  | .loading | .resetFromLoading | .resetFromReady => s1

/-- The actions of the blocks at the release in RESET entered from READY (Table 9-2). -/
def releaseWarmReset (s : State) : State :=
  forEach allDegrees degreeRelease (forEach allAgents openPort { s with loadState := .ready })

/-- The warm-reset line is released (R181). -/
def warmRelease (s : State) : State :=
  let s1 := { s with warmAsserted := false }
  match s.loadState with
  | .resetFromLoading => enterReady s1
  | .resetFromReady => releaseWarmReset s1
  | .loading | .ready => s1

/-- POWER_ON (R176). -/
def execPowerOn (s : State) : Answered := .next (powerOn s)

/-- CONFIGURATION_APPLIED (R177, R178). -/
def execConfigurationApplied (image : List Byte) (s : State) : Answered := .next (applyConfiguration image s)

/-- WARM_RESET_ASSERTION (R181). -/
def execWarmResetAssertion (s : State) : Answered := .next (warmAssertion s)

/-- WARM_RESET_RELEASE (R181). -/
def execWarmResetRelease (s : State) : Answered := .next (warmRelease s)

end Sys2Proof.Machine
end

