-- ==== Sys2Proof/Machine/Dispatch.lean ====
section
/-! DEFINITION. One arm per command of the opcode table. -/

namespace Sys2Proof.Machine

def exec (i : Instr) (s : State) : Host.Outcome State Fault Refusal :=
  match i with
  | .advertiseLink a ref p => Sys2Proof.Machine.execAdvertiseLink a ref p s
  | .withdrawLink a ref key => Sys2Proof.Machine.execWithdrawLink a ref key s
  | .queryLink a ref key => Sys2Proof.Machine.execQueryLink a ref key s
  | .listLinks a ref start => Sys2Proof.Machine.execListLinks a ref start s
  | .setLocal a ref id => Sys2Proof.Machine.execSetLocal a ref id s
  | .pathRequest a ref p => Sys2Proof.Machine.execPathRequest a ref p s
  | .pathCancel a ref tag => Sys2Proof.Machine.execPathCancel a ref tag s
  | .setClass a ref cls threshold => Sys2Proof.Machine.execSetClass a ref cls threshold s
  | .commit a ref index sequence => Sys2Proof.Machine.execCommit a ref index sequence s
  | .release a ref index sequence => Sys2Proof.Machine.execRelease a ref index sequence s
  | .queryCircuit a ref index => Sys2Proof.Machine.execQueryCircuit a ref index s
  | .setDegree a ref degree p => Sys2Proof.Machine.execSetDegree a ref degree p s
  | .discover a ref degree => Sys2Proof.Machine.execDiscover a ref degree s
  | .queryDegree a ref degree => Sys2Proof.Machine.execQueryDegree a ref degree s
  | .loadCounter a ref degree counter value => Sys2Proof.Machine.execLoadCounter a ref degree counter value s
  | .setFilter a ref entries mask => Sys2Proof.Machine.execSetFilter a ref entries mask s
  | .init a grid credit mask => Sys2Proof.Machine.execInit a grid credit mask s
  | .credit a count => Sys2Proof.Machine.execCredit a count s
  | .command a body => Sys2Proof.Machine.execCommand a body s
  | .frameCheckFailure a frame => Sys2Proof.Machine.execFrameCheckFailure a frame s
  | .take a => Sys2Proof.Machine.execTake a s
  | .send a => Sys2Proof.Machine.execSend a s
  | .linkUp a => Sys2Proof.Machine.execLinkUp a s
  | .linkDown a => Sys2Proof.Machine.execLinkDown a s
  | .requestArbiter => Sys2Proof.Machine.execRequestArbiter s
  | .settlingStep => Sys2Proof.Machine.execSettlingStep s
  | .holdExpiry c => Sys2Proof.Machine.execHoldExpiry c s
  | .lifetimeExpiry link => Sys2Proof.Machine.execLifetimeExpiry link s
  | .graceExpiry link => Sys2Proof.Machine.execGraceExpiry link s
  | .probeSend d => Sys2Proof.Machine.execProbeSend d s
  | .identAnswer d x => Sys2Proof.Machine.execIdentAnswer d x s
  | .chainAnswer d batch sites more => Sys2Proof.Machine.execChainAnswer d batch sites more s
  | .keepaliveAnswer d error occupied => Sys2Proof.Machine.execKeepaliveAnswer d error occupied s
  | .erroredAnswer d frame => Sys2Proof.Machine.execErroredAnswer d frame s
  | .probeTimeout d => Sys2Proof.Machine.execProbeTimeout d s
  | .keepaliveTimeout d => Sys2Proof.Machine.execKeepaliveTimeout d s
  | .keepaliveIntervalExpiry d => Sys2Proof.Machine.execKeepaliveIntervalExpiry d s
  | .carrierChange d x => Sys2Proof.Machine.execCarrierChange d x s
  | .lossDeclareExpiry d => Sys2Proof.Machine.execLossDeclareExpiry d s
  | .settleExpiry d => Sys2Proof.Machine.execSettleExpiry d s
  | .holdDownExpiry d => Sys2Proof.Machine.execHoldDownExpiry d s
  | .powerOn => Sys2Proof.Machine.execPowerOn s
  | .configurationApplied image => Sys2Proof.Machine.execConfigurationApplied image s
  | .warmResetAssertion => Sys2Proof.Machine.execWarmResetAssertion s
  | .warmResetRelease => Sys2Proof.Machine.execWarmResetRelease s

end Sys2Proof.Machine
end

