-- ==== Sys2Proof/Machine/Timebase.lean ====
section
/-! DEFINITION. The 1 ms timebase: one tick counts every running timer down, and the timers that reach 0 expire (DESIGN CHOICE, log entry 2). -/

namespace Sys2Proof.Machine

/-- One ms less on a running timer. -/
def countdown (t : Option Nat) : Option Nat := t.map (· - 1)

/-- Timers run in READY, and in RESET entered from READY (R176, R181). -/
def timersRun : LoadState → Bool
  | .ready | .resetFromReady => true
  | .loading | .resetFromLoading => false

/-- The timers of a degree, one ms on. -/
def Degree.counted (x : Degree) : Degree :=
  { x with
    probeTimer := countdown x.probeTimer, lossTimer := countdown x.lossTimer, settleTimer := countdown x.settleTimer
    intervalTimer := countdown x.intervalTimer, holdDownTimer := countdown x.holdDownTimer }

/-- Every running timer, one ms on. -/
def countTimers (s : State) : State :=
  { s with
    links := s.links.map fun r => { r with lifetime := countdown r.lifetime, grace := countdown r.grace }
    circuits := Vector.ofFn fun c => (s.circuit c).map fun e => { e with hold := countdown e.hold }
    degrees := Vector.ofFn fun d => (s.degree d).counted }

/-- The hold at `c` expires where it has run out. -/
def expireHold (c : CircuitNo) (s : State) : State :=
  if (s.circuit c).any (fun e => e.hold == some 0) then holdExpired c s else s

/-- Lifetime and grace of the record at `i` expire where they have run out. -/
def expireLink (i : Nat) (s : State) : State :=
  if (s.linkAt i).any (fun r => r.lifetime == some 0) then lifetimeExpired i s
  else if (s.linkAt i).any (fun r => r.grace == some 0) then graceExpired i s
  else s

/-- The probe timer of a degree expires where it has run out. -/
def expireProbe (d : DegreeNo) (s : State) : State :=
  if (s.degree d).probeTimer = some 0 then
    if (s.degree d).outstanding = some .keepalive then keepaliveExpired d s else probeExpired d s
  else s

def expireInterval (d : DegreeNo) (s : State) : State :=
  if (s.degree d).intervalTimer = some 0 then intervalExpired d s else s

def expireLoss (d : DegreeNo) (s : State) : State :=
  if (s.degree d).lossTimer = some 0 then lossExpired d s else s

def expireSettle (d : DegreeNo) (s : State) : State :=
  if (s.degree d).settleTimer = some 0 then settleExpired d s else s

def expireHoldDown (d : DegreeNo) (s : State) : State :=
  if (s.degree d).holdDownTimer = some 0 then holdDownExpired d s else s

/-- The timers of one degree that have run out expire. -/
def expireDegree (d : DegreeNo) (s : State) : State :=
  expireHoldDown d (expireSettle d (expireLoss d (expireInterval d (expireProbe d s))))

/-- One tick of the timebase: count, then expire holds, links and degrees in ascending number. -/
def tick (s : State) : State :=
  if timersRun s.loadState then
    let s1 := countTimers s
    forEach allDegrees expireDegree
      (forEach (s1.links.map (·.index)) expireLink (forEach allCircuits expireHold s1))
  else s

end Sys2Proof.Machine
end

