-- ==== Sys2Proof/Safety.lean ====
section
/-! DEFINITION. What a sound state is, in the terms the statements use: the invariants of the ports, the path engine, the
topology store, the slots in use and the degrees; and the words of the frames. -/

namespace Sys2Proof.Machine

/-! ## Words of the statements -/

/-- Agent `a` is heard at once: its port is ACTIVE, its command queue is empty, it has credit, and slot `k` is the
lowest-numbered free response slot, so that a command is taken within its own arrival (R153, R154). -/
structure Heard (s : State) (a : AgentId) (k : SlotNo) : Prop where
  active : (s.port a).state = .active
  queue  : (s.port a).queue = []
  credit : (s.port a).credits ≠ 0
  slot   : (s.port a).freeSlot = some k

/-- The port once a command was received and taken into slot `k`: the slot is reserved, the credit it used has come back, and
the CREDIT frame of the take waits (R153, R154). -/
def Port.taken (x : Port) (k : SlotNo) (ref : BitVec 16) (kind : Byte) : Port :=
  { x with slots := x.slots.set k (.reserved ref kind), linkFrames := x.linkFrames ++ [.credit] }

/-- The state in which the owner of a command of agent `a` acts: the command holds slot `k` of its port. -/
def taken (a : AgentId) (k : SlotNo) (ref : BitVec 16) (kind : Byte) (s : State) : State :=
  s.setPort a ((s.port a).taken k ref kind)

/-- The port once a command was taken into slot `k` and answered there with `r` within the same event. -/
def Port.replied (x : Port) (k : SlotNo) (r : Response) : Port :=
  { x with slots := x.slots.set k (.filled r x.moment), moment := x.moment + 1, linkFrames := x.linkFrames ++ [.credit] }

/-- A command of agent `a` was taken into slot `k`, answered there with `r`, and did nothing else. -/
def replied (a : AgentId) (k : SlotNo) (r : Response) (s : State) : State := s.setPort a ((s.port a).replied k r)

/-- Slot `k` of port `a` holds the complete response `r`. -/
def hasReply (s : State) (a : AgentId) (k : SlotNo) (r : Response) : Prop := ∃ m, (s.port a).slots[k] = .filled r m

/-- The node table, the link table, the local node id and the generation counter are unchanged. -/
def StoreKept (s t : State) : Prop :=
  t.localId = s.localId ∧ t.nodes = s.nodes ∧ t.links = s.links ∧ t.generation = s.generation

/-- The class table, the pending lists, the running request and the last-served port are unchanged. -/
def EngineKept (s t : State) : Prop :=
  t.classes = s.classes ∧ t.queued = s.queued ∧ t.running = s.running ∧ t.lastServed = s.lastServed

/-- The circuit table and its sequence numbers are unchanged. -/
def CircuitsKept (s t : State) : Prop := t.circuits = s.circuits ∧ t.sequences = s.sequences

/-- Load state, warm-reset line, port enable mask, probes sent and waiting commands are unchanged. -/
def LinesKept (s t : State) : Prop :=
  t.loadState = s.loadState ∧ t.warmAsserted = s.warmAsserted ∧ t.portEnable = s.portEnable ∧
  t.probesSent = s.probesSent ∧ t.pending = s.pending

/-- Port `p` changed in its notice queue, its lost count and the dating of its output alone. -/
def NoticesOnly (s t : State) (p : AgentId) : Prop :=
  t.port p = { s.port p with
    notices := (t.port p).notices, lost := (t.port p).lost, moment := (t.port p).moment }

/-- `s` with the commands `q` waiting on port `a`. -/
def withWaiting (a : AgentId) (q : List QueuedCommand) (s : State) : State := s.setPort a { s.port a with queue := q }

/-- SEND of port `a` leaves the state `t` once its frame, if any, has gone; the commands that wait are then taken as by TAKE,
in the same event (R154, R156). -/
def Sends (a : AgentId) (s t : State) : Prop :=
  exec (.send a) s = exec (.take a) t ∧ ((s.port a).queue = [] → exec (.send a) s = .next t)

/-- The row of an agent command. -/
def agentRow (a : AgentId) (ref : BitVec 16) : AgentCommand → Instr
  | .advertiseLink p => .advertiseLink a ref p
  | .withdrawLink k => .withdrawLink a ref k
  | .queryLink k => .queryLink a ref k
  | .listLinks i => .listLinks a ref i
  | .setLocal id => .setLocal a ref id
  | .pathRequest p => .pathRequest a ref p
  | .pathCancel tag => .pathCancel a ref tag
  | .setClass c f => .setClass a ref c f
  | .commit i q => .commit a ref i q
  | .release i q => .release a ref i q
  | .queryCircuit i => .queryCircuit a ref i
  | .setDegree d p => .setDegree a ref d p
  | .discover d => .discover a ref d
  | .queryDegree d => .queryDegree a ref d
  | .loadCounter d c v => .loadCounter a ref d c v
  | .setFilter es m => .setFilter a ref es m

/-- What R7 asks of an advertisement, with `st` the state its code names. -/
structure Advertisable (p : AdvertiseParams) (st : LinkState) : Prop where
  state : (p.state = 1 ∧ st = .up) ∨ (p.state = 2 ∧ st = .degraded) ∨ (p.state = 4 ∧ st = .down)
  key   : p.key.fromNode ≠ 0 ∧ p.key.toNode ≠ 0 ∧ p.key.fromNode ≠ p.key.toNode
  srlg  : p.srlg.length ≤ 4 ∧ 0 ∉ p.srlg ∧ p.srlg.Nodup

/-- The clamped lifetime of R7, in ms. -/
def lifetimeMs (n : Nat) : Nat := (if n = 0 then 180 else max 10 (min 3600 n)) * 1000

/-- The reference counts of both endpoints of a created link went up by 1; an unknown endpoint became a REMOTE node at the
lowest free index (R2). -/
structure NodesRaised (s t : State) (k : LinkKey) : Prop where
  known   : ∀ id n, (id = k.fromNode ∨ id = k.toNode) → s.nodeById id = some n →
    t.nodeById id = some { n with refs := n.refs + 1 }
  created : ∀ id, (id = k.fromNode ∨ id = k.toNode) → s.nodeById id = none →
    ∃ n, t.nodeById id = some n ∧ n.kind = .remote ∧ n.refs = 1 ∧ 1 ≤ n.index ∧ n.index ≤ 255 ∧
      (∀ m ∈ s.nodes, m.index ≠ n.index) ∧ ∀ j, 1 ≤ j → j < n.index → ∃ m ∈ t.nodes, m.index = j
  others  : ∀ id, id ≠ k.fromNode → id ≠ k.toNode → t.nodeById id = s.nodeById id

/-- The reference counts of both endpoints of a removed link went down by 1; a REMOTE node at 0 is gone (R3). -/
structure NodesLowered (s t : State) (k : LinkKey) : Prop where
  named  : ∀ id n, (id = k.fromNode ∨ id = k.toNode) → s.nodeById id = some n →
    t.nodeById id = if n.kind = .remote ∧ n.refs ≤ 1 then none else some { n with refs := n.refs - 1 }
  others : ∀ id, id ≠ k.fromNode → id ≠ k.toNode → t.nodeById id = s.nodeById id

/-- The removal of a link record (R14), but for its notice. -/
structure LinkRemoved (s t : State) (r : LinkRecord) : Prop where
  links      : ∀ i, t.linkAt i = if i = r.index then none else s.linkAt i
  nodes      : NodesLowered s t r.key
  generation : t.generation = s.generation + 1
  localId    : t.localId = s.localId
  engine     : EngineKept s t
  circuits   : CircuitsKept s t
  degrees    : t.degrees = s.degrees
  lines      : LinesKept s t

/-- A record with one state written into a slot range, where its index is on a path (R82). -/
def rangeWritten (path : List PathHop) (first width : Nat) (v : SlotState) (r : LinkRecord) : LinkRecord :=
  if r.index ∈ path.map (·.index) then
    { r with channels := Vector.ofFn fun i => if first ≤ i ∧ i < first + width then v else r.channels[i] }
  else r

/-- A record with the slots of a removed entry FREE. -/
def rangeFreed (e : Circuit) (r : LinkRecord) : LinkRecord := rangeWritten e.path e.firstSlot e.width .free r

/-- A record on the path of a removed entry goes with it: its removal is deferred, and no slot of it is in use any longer
(R17). -/
def goesWith (e : Circuit) (r : LinkRecord) : Bool :=
  decide (r.index ∈ e.path.map (·.index)) && r.removalDeferred && !mapInUse (rangeFreed e r).channels

/-- The node `id` once the links `gone` no longer name it: its reference count is lower by one for each, and a REMOTE node
that no link names any longer is gone (R3). -/
def nodeWithout (s : State) (gone : List LinkRecord) (id : NodeId) : Option NodeRecord :=
  let k := gone.countP fun r => r.key.fromNode == id || r.key.toNode == id
  (s.nodeById id).bind fun n => if n.kind = .remote ∧ n.refs ≤ k then none else some { n with refs := n.refs - k }

/-- REMOVED of each of the links `gone`, in their order (R12, R14). -/
def removedNotices (gone : List LinkRecord) : List Notice := gone.map fun r => .linkChanged r.key r.state .removed

/-- The removal of the entry `e` at `c` (R91), but for its notices. -/
structure CircuitRemoved (s t : State) (c : CircuitNo) (e : Circuit) : Prop where
  entry      : t.circuit c = none
  partner    : ∀ x, x ≠ c → t.circuit x =
    if e.partner = some x then (s.circuit x).map fun y => { y with partner := none } else s.circuit x
  sequences  : t.sequences = s.sequences
  links      : t.links = (s.links.filter fun r => !goesWith e r).map (rangeFreed e)
  generation : t.generation = s.generation + BitVec.ofNat 32 (s.links.countP (goesWith e))
  nodes      : s.links.countP (goesWith e) = 0 → t.nodes = s.nodes
  localId    : t.localId = s.localId
  engine     : EngineKept s t
  degrees    : t.degrees = s.degrees
  lines      : LinesKept s t

/-- The HELD entries of agent `a` at the indexes `cs` are removed in that order, each with REMOVED of the links that go with it and
with their nodes (R91, R99). -/
inductive HoldsRemoved (a : AgentId) : List CircuitNo → State → State → Prop where
  | done (s : State) : HoldsRemoved a [] s s
  | kept (c : CircuitNo) (cs : List CircuitNo) (s t : State) :
      (∀ e, s.circuit c = some e → e.state = .held → e.owner ≠ a) → HoldsRemoved a cs s t → HoldsRemoved a (c :: cs) s t
  | removed (c : CircuitNo) (cs : List CircuitNo) (e : Circuit) (s u t : State) :
      s.circuit c = some e → e.state = .held → e.owner = a → CircuitRemoved s u c e →
      (∀ p, u.port p = (removedNotices (s.links.filter (goesWith e))).foldl Port.offered (s.port p)) →
      (∀ id, u.nodeById id = nodeWithout s (s.links.filter (goesWith e)) id) → HoldsRemoved a cs u t →
      HoldsRemoved a (c :: cs) s t

/-- The record `r` becomes STALE, its lifetime absent and its grace 60 s: the counter moves by 1, LINK CHANGED is offered to every
port, then the circuits over the link follow (R12, R18, R95). -/
def madeStale (r : LinkRecord) (s : State) : State :=
  circuitsFollow r.index r.key .stale (offerAll (.linkChanged r.key .stale .stale)
    ((bumpGeneration s).putLink { r with state := .stale, lifetime := none, grace := some 60000 }))

/-- What R85 asks of every link of a part of a claim. -/
def ClaimOk (s : State) (q : Claim) (part : ClaimPart) : Prop :=
  ∀ h ∈ part.path, ∃ r, s.linkAt h.index = some r ∧ r.key = h.key ∧
    (r.state = .up ∨ (r.state = .degraded ∧ q.allowDegraded = true)) ∧
    ∀ j, j < part.width → ∃ h : part.firstSlot + j < 96, r.channels[part.firstSlot + j] = .free

/-- A record under a key of the pair, whoever owns it, has a slot in use (log entry 28). -/
def PairBusy (s : State) (p : InstalledPair) : Prop :=
  ∃ r, (s.linkByKey p.outgoing = some r ∨ s.linkByKey p.ret = some r) ∧ ∃ i : Fin 96, r.channels[i].used = true

/-- The far-end mask `m` names a slot in use of a record under a key of the pair (R19). -/
def PairOverlaps (s : State) (p : InstalledPair) (m : SlotMask) : Prop :=
  ∃ r, (s.linkByKey p.outgoing = some r ∨ s.linkByKey p.ret = some r) ∧
    ∃ i : Fin 96, m.getLsbD i = true ∧ r.channels[i].used = true

/-- Degree `d`, in state `old` so far, takes the record `y`; DEGREE EVENT is offered where the state differs (R105). -/
def degreeMoves (d : DegreeNo) (old : DegreeState) (y : Degree) (reason : DegreeReason) (s : State) : State :=
  if y.state = old then s.setDegree d y else offerAll (.degreeEvent d old y.state reason) (s.setDegree d y)

/-- The notice, if any, that the entry at `c` offers to port `p` when the link at `i` takes the state `st` (R95, R96). -/
def affectedNote (s : State) (i : Nat) (key : LinkKey) (st : LinkState) (p : AgentId) (c : CircuitNo) : Option Notice :=
  match s.circuit c with
  | some e =>
    if e.owner = p ∧ i ∈ e.path.map (·.index) then
      if st.usable then
        if e.affected ∧ pathUsable s e.path then some (affectedNotice s c e .restored key st) else none
      else if e.affected then none else some (affectedNotice s c e .affected key st)
    else none
  | none => none

/-- The tests of R59 but the arithmetic one, for a link `r` out of the settled label's node. -/
structure PlainUsable (run : Running) (r : LinkRecord) : Prop where
  state      : r.state = .up ∨ (r.state = .degraded ∧ run.req.allowDegraded = true)
  listed     : ∀ e ∈ run.req.exclusions, e ≠ .link r.key ∧ e ≠ .node r.key.toNode ∧ ∀ g, e = .srlg g → g ∉ r.srlg
  diverse    : ∀ w, run.protecting = some w → ∀ l ∈ w.links,
    l.key ≠ r.key ∧ ¬ (l.key.fromNode = r.key.toNode ∧ l.key.toNode = r.key.fromNode) ∧ ∀ g ∈ l.srlg, g ∉ r.srlg
  inner      : ∀ w, run.protecting = some w → r.key.toNode ∉ (w.links.map fun l => l.key.toNode).dropLast
  capability : ∀ j, j < run.req.width → r.capability.getLsbD (run.candidate * run.req.width + j) = true
  occupancy  : ∀ j, j < run.req.width → ∃ h : run.candidate * run.req.width + j < 96,
    r.channels[run.candidate * run.req.width + j] = .free

/-- The link `r` is tested arithmetically when the label `l` is settled: it leads from the node of `l` to an unsettled node and
passes the other tests (R58, R59). -/
structure Relaxed (s : State) (run : Running) (l : Label) (r : LinkRecord) : Prop where
  listed  : r ∈ s.links
  leaves  : r.key.fromNode = l.node
  reaches : ∀ y ∈ l :: run.settled, y.node ≠ r.key.toNode
  usable  : PlainUsable run r

/-- The steps of R42 reach an OVERFLOW on the link `r`: the ADD overflows, or the noise and the hops pass and the delay
saturates (R42, R43, R45). -/
def Overflows (q : Request) (l : Label) (r : LinkRecord) : Prop :=
  r.illegalNoise = false ∧ ((figAdd l.noise r.noise).2.overflow = true ∨
    figCompare (figAdd l.noise r.noise).1 q.threshold = true ∧ l.hops + 1 ≤ q.maxHops ∧ 16777215 < l.delay + r.delay.toNat)

/-- The label `x` extends the settled label `l` over the link `r`, by the steps of R42. -/
structure Extends (q : Request) (l : Label) (r : LinkRecord) (x : Label) : Prop where
  legal : r.illegalNoise = false
  noise : x.noise = (figAdd l.noise r.noise).1 ∧ figCompare x.noise q.threshold = true
  node  : x.node = r.key.toNode
  cost  : x.cost = l.cost + r.cost.toNat
  hops  : x.hops = l.hops + 1 ∧ x.hops ≤ q.maxHops
  delay : x.delay = min (l.delay + r.delay.toNat) 16777215 ∧ (q.delayBound = 0 ∨ x.delay ≤ q.delayBound)
  pred  : x.pred = some ⟨l.node, l.index, ⟨r.index, r.key, r.srlg⟩⟩

/-- The eleven checks of R49 in their order, for a PATH REQUEST of agent `a`: whether each fails, and its completion. -/
def admissionChecks (s : State) (a : AgentId) (p : PathParams) : List (Bool × Completion) :=
  [ (decide (s.localId = 0), .notReady),
    (decide (7 < p.cls.toNat), .badField),
    (decide (1 < p.constraintKind.toNat ∨ 1 < p.direction.toNat ∨ 1 < p.policy.toNat ∨ 1 < p.diversity.toNat ∨
      1 < p.hold.toNat ∨ 1 < p.arithmetic.toNat) || p.exclusions.any fun e => match e with
        | .unknown _ => true
        | .node _ | .link _ | .srlg _ => false, .badField),
    (decide (8 < p.exclusions.length), .badField),
    (decide (p.constraintKind = 1 ∧ ((s.port a).grid = some .g50 ∧ 95 < p.channel.toNat ∨
      (s.port a).grid = some .g100 ∧ 47 < p.channel.toNat)), .badField),
    (decide (p.source = 0 ∨ p.destination = 0 ∨ p.source = p.destination), .badField),
    (p.exclusions.any fun e => match e with
      | .node id => decide (id = 0)
      | .link x => decide (x.fromNode = 0 ∨ x.toNode = 0 ∨ x.fromNode = x.toNode)
      | .srlg g => decide (g = 0)
      | .unknown _ => false, .badField),
    (decide (.node p.source ∈ p.exclusions ∨ .node p.destination ∈ p.exclusions), .badField),
    (decide (s.nodeById p.source = none ∨ s.nodeById p.destination = none), .noEntry),
    (decide (p.tag ∈ (s.pendingList a).map (·.tag)), .duplicateTag),
    (decide (4 ≤ (s.pendingList a).length), .busy) ]

/-- `links` lead from a source label to `l` through settled labels (R61). -/
inductive PathTo (settled : List Label) : Label → List PathLink → Prop where
  | source (l : Label) : l.pred = none → PathTo settled l []
  | step (l x : Label) (p : Predecessor) (links : List PathLink) :
      l.pred = some p → (settled.find? fun y => y.node = p.node) = some x → PathTo settled x links →
      PathTo settled l (links ++ [p.link])

/-- The request of `run` is answered and its search ends, and the arbiter acts (R70). -/
def ended (run : Running) (code : Completion) (working protection : Option FoundPath) (handles : List Handle) (s : State) :
    Answered :=
  let block (x : FoundPath) : PathBlock :=
    { channel := x.candidate, keys := x.links.map (·.key), cost := x.cost, delay := x.delay, noise := x.noise, hops := x.hops }
  exec .requestArbiter (answer ⟨run.port, run.req.slot, run.req.ref, 6⟩ code (.path
      { tag := run.req.tag, staleTopology := run.req.captured.any fun g => g ≠ s.generation
        overflow := run.req.overflow, illegalSkipped := run.req.illegalSkipped, retries := run.req.retries
        working := working.map block, protection := protection.map block, handles := handles })
    { s with running := none })

/-- A search of `run` starts on candidate `c`, with the candidates `cs` to come: the source alone is in the frontier (R56). -/
def searching (s : State) (run : Running) (c : Nat) (cs : List Nat) : Running :=
  { run with
    candidate := c, remaining := cs, settled := []
    frontier := [⟨run.req.source, ((s.nodeById run.req.source).map (·.index)).getD 0, 0, 0, 0, 0, none⟩] }

/-- The candidates of a request, in search order (R55). -/
def searchOrder (q : Request) : List Nat :=
  (if q.direction = .highFirst then List.reverse else id)
    (match q.channel with | some c => [c] | none => List.range (96 / q.width))

/-- The next settling step ends the search on its candidate without a path: the frontier is empty, or the step settles the 256th
label short of the destination (R57). -/
def SearchFails (run : Running) : Prop :=
  run.frontier = [] ∨ 256 ≤ run.settled.length + 1 ∧ ∃ l, leastLabel run.frontier = some l ∧ l.node ≠ run.req.destination

/-- The next settling step settles the destination, and `w` is the path its labels lead over, with their totals (R57, R61). -/
def SearchFinds (run : Running) (w : FoundPath) : Prop :=
  ∃ l links, leastLabel run.frontier = some l ∧ l.node = run.req.destination ∧ PathTo (l :: run.settled) l links ∧
    links.length = l.hops ∧
    w = { candidate := run.candidate, links := links, cost := l.cost, hops := l.hops, noise := l.noise, delay := l.delay }

/-- `n` more conflicts on the retry count, which saturates at 255 (R68). -/
def conflicted (run : Running) (n : Nat) : Running :=
  { run with req := { run.req with retries := min (run.req.retries + n) 255 } }

/-- The claim for a working path, and for PAIR its protection path (R68). -/
def claimOf (run : Running) (w : FoundPath) (p : Option FoundPath) : Claim :=
  let part (role : Role) (x : FoundPath) : ClaimPart :=
    ⟨role, x.candidate * run.req.width, run.req.width, x.links.map fun l => ⟨l.index, l.key⟩⟩
  { owner := run.port, tag := run.req.tag, holdTime := run.req.holdTime, allowDegraded := run.req.allowDegraded
    working := part .working w, protection := p.map (part .protection) }

/-- `a`, found on a later candidate, ranks before `b` (R67). -/
def Outranks (a b : FoundPath) : Prop :=
  a.cost < b.cost ∨ a.cost = b.cost ∧ a.noise ≠ b.noise ∧ figCompare a.noise b.noise = true

/-- No candidate is left to search, and the request ends by the table of R63. -/
def exhausted (run : Running) (s : State) : Answered :=
  if 0 < run.req.retries then ended run .conflict none none [] s
  else
    match run.req.diversity, run.firstWorking with
    | .pair, some w => ended run .noDiverse (some w) none [] s
    | .pair, none | .none, _ => ended run .noPath none none [] s

/-! ## Ticks (log entry 2) -/

/-- A timer has at most 1 ms left. -/
def runsOut (t : Option Nat) : Prop := ∃ n, t = some n ∧ n ≤ 1

/-- The timer that the expiry row names runs out within the next ms. -/
inductive Due (s : State) : Instr → Prop where
  | hold (c : CircuitNo) (e : Circuit) : s.circuit c = some e → runsOut e.hold → Due s (.holdExpiry c)
  | lifetime (i : Fin 1024) (r : LinkRecord) : s.linkAt i = some r → runsOut r.lifetime → Due s (.lifetimeExpiry i)
  | grace (i : Fin 1024) (r : LinkRecord) : s.linkAt i = some r → runsOut r.grace → Due s (.graceExpiry i)
  | probe (d : DegreeNo) (p : Probe) : (s.degree d).outstanding = some p → p ≠ .keepalive →
      runsOut (s.degree d).probeTimer → Due s (.probeTimeout d)
  | keepalive (d : DegreeNo) : (s.degree d).outstanding = some .keepalive → runsOut (s.degree d).probeTimer →
      Due s (.keepaliveTimeout d)
  | interval (d : DegreeNo) : runsOut (s.degree d).intervalTimer → Due s (.keepaliveIntervalExpiry d)
  | loss (d : DegreeNo) : runsOut (s.degree d).lossTimer → Due s (.lossDeclareExpiry d)
  | settle (d : DegreeNo) : runsOut (s.degree d).settleTimer → Due s (.settleExpiry d)
  | holdDown (d : DegreeNo) : runsOut (s.degree d).holdDownTimer → Due s (.holdDownExpiry d)

/-- Every running timer has one ms less, and nothing else differs. -/
structure OneMsOn (s u : State) : Prop where
  links     : u.links = s.links.map fun r => { r with lifetime := r.lifetime.map (· - 1), grace := r.grace.map (· - 1) }
  circuits  : ∀ c, u.circuit c = (s.circuit c).map fun e => { e with hold := e.hold.map (· - 1) }
  degrees   : ∀ d, u.degree d = { s.degree d with
    probeTimer := (s.degree d).probeTimer.map (· - 1), lossTimer := (s.degree d).lossTimer.map (· - 1)
    settleTimer := (s.degree d).settleTimer.map (· - 1), intervalTimer := (s.degree d).intervalTimer.map (· - 1)
    holdDownTimer := (s.degree d).holdDownTimer.map (· - 1) }
  localId   : u.localId = s.localId
  nodes     : u.nodes = s.nodes
  counter   : u.generation = s.generation
  sequences : u.sequences = s.sequences
  engine    : EngineKept s u
  lines     : LinesKept s u
  ports     : u.ports = s.ports

/-! ## Noise of a chain (R36 to R39) -/

/-- The noise of one site under a profile. -/
def siteNoise (p : Profile) (x : SiteRecord) : IfField :=
  match p with
  | .native => x.raw
  | .linear24 => figNormalize x.raw.toNat 24
  | .perkm => (figMult x.raw (figNormalize x.span.toNat 4)).1

/-- The ADD of the sites' noise from zero, in reported order. -/
def chainNoise (p : Profile) (chain : List SiteRecord) : IfField :=
  (chain.map (siteNoise p)).foldl (fun acc f => (figAdd acc f).1) 0

/-! ## Frames sent (sections 10.1, 10.5) -/

/-- The order of bytes and bits, and the codes of Tables 8-3 and 10-7 (R182). -/
def FieldCodes : Prop :=
  (∀ n v : Nat, (beBytes n v).length = n ∧ (beBytes n v).foldl (fun a b => a * 256 + b.toNat) 0 = v % 256 ^ n) ∧
  (∀ m : SlotMask, (maskBytes m).length = 12 ∧
    ∀ (i : Fin 96) (b : Byte), (maskBytes m)[(i : Nat) / 8]? = some b → b.getLsbD (7 - i % 8) = m.getLsbD i) ∧
  (∀ k : LinkKey, keyBytes k = wordBytes 4 k.fromNode ++ wordBytes 4 k.toNode ++ [k.iface, 0, 0, 0]) ∧
  (∀ h : Handle, handleBytes h = [BitVec.ofNat 8 h.index, h.sequence]) ∧
  (∀ c : CircuitNo, slotStateByte .free = 0 ∧ slotStateByte .foreign = 64 ∧
    slotStateByte (.held c) = BitVec.ofNat 8 (128 + c) ∧ slotStateByte (.lit c) = BitVec.ofNat 8 (192 + c)) ∧
  flagByte false = 0 ∧ flagByte true = 1 ∧ ([.up, .degraded, .holddown, .down, .stale] : List LinkState).map linkStateByte =
    [1, 2, 3, 4, 5] ∧
  ([.agent 0, .agent 1, .agent 2, .agent 3, .discovery] : List Owner).map ownerByte = [0, 1, 2, 3, 4] ∧
  ([.created, .updated, .state, .stale, .removed, .takeover, .foreign] : List LinkReason).map reasonByte =
    [1, 2, 3, 4, 5, 6, 7] ∧
  roleByte .working = 0 ∧ roleByte .protection = 1 ∧ carrierByte .absent = 0 ∧ carrierByte .present = 1 ∧
  ([.native, .linear24, .perkm] : List Profile).map profileByte = [0, 1, 2] ∧
  ([.probeTimeouts, .erroredAnswers, .carrierDrops] : List CounterName).map counterByte = [0, 1, 2] ∧
  ([.disabled, .idle, .probing, .collecting, .up, .degraded, .holddown, .lost, .exhausted, .fault, .mismatch] :
    List DegreeState).map degreeStateByte = [0, 1, 2, 3, 4, 5, 6, 7, 8, 9, 10] ∧
  ([.config, .discover, .start, .warmReset, .collect, .tries, .chainOverflow, .chainCount, .farEnd, .tableFull,
    .farEndChanged, .installed, .carrierLoss, .keepaliveLoss, .carrierRestore, .holddownEnd, .remoteDegraded,
    .remoteClear] : List DegreeReason).map degreeReasonByte =
    [1, 2, 3, 4, 5, 6, 7, 8, 9, 10, 11, 12, 13, 14, 15, 16, 17, 18] ∧
  ([.ok, .badField, .notReady, .notOwner, .noEntry, .tableFull, .inUse, .busy, .duplicateTag, .noPath, .noDiverse,
    .conflict, .holdRefused, .cancelled, .arithAbort] : List Completion).map completionByte =
    [0, 1, 2, 3, 4, 5, 6, 7, 8, 9, 10, 11, 12, 13, 14]

/-- What Table 10-12 and R188 let an answer carry: a site count from 0 to 15, 1 to 5 site records. -/
def ScAnswer.Legal : ScAnswer → Prop
  | .ident x => x.siteCount.toNat ≤ 15
  | .chain _ sites _ => 1 ≤ sites.length ∧ sites.length ≤ 5
  | .keepalive _ _ => True

/-- The kind of an answer, the byte at offset 1 and the body (Tables 10-11 and 10-12). -/
def ScAnswer.layout : ScAnswer → Byte × Byte × List Byte
  | .ident x => (0x81, 0, wordBytes 4 x.node ++ [x.iface, x.siteCount, flagByte x.overflow, 0] ++
      maskBytes x.capability ++ maskBytes x.occupied)
  | .chain batch sites more => (0x82, batch, [BitVec.ofNat 8 sites.length, flagByte more, 0, 0] ++ sites.flatMap fun x =>
      wordBytes 4 x.id ++ wordBytes 2 x.span ++ wordBytes 3 x.delay ++ wordBytes 3 x.raw ++ [flagByte x.alarm, 0, 0, 0])
  | .keepalive error occupied => (0x83, 0, [flagByte error, 0, 0, 0] ++ maskBytes occupied)

/-- The frame of an answer, its check value over header and body (Table 10-11). -/
def answerFrame (x : ScAnswer) : List Byte :=
  let front := [x.layout.1, x.layout.2.1] ++ beBytes 2 x.layout.2.2.length ++ x.layout.2.2
  front ++ crcBytes front

/-- The row of an answer at degree `d`. -/
def answerRow (d : DegreeNo) : ScAnswer → Instr
  | .ident x => .identAnswer d x
  | .chain batch sites more => .chainAnswer d batch sites more
  | .keepalive error occupied => .keepaliveAnswer d error occupied

/-- A field that may be absent, of `n` bytes: its presence byte, and the field or zeros (section 10.5). -/
def presence (n : Nat) (field : Option (List Byte)) : List Byte :=
  match field with
  | some bytes => 1 :: bytes
  | none => 0 :: List.replicate n 0

/-- The time a timer in ms has left, in whole seconds, rounded up (R187). -/
def secondsField (t : Option Nat) : List Byte := presence 2 (t.map fun ms => beBytes 2 ((ms + 999) / 1000))

/-- The contents of each response (section 10.5, R187; the order within the query answers: log entry 18). -/
def ResponseLayouts : Prop :=
  responseContents .empty = [] ∧ (∀ b, responseContents (.overlap b) = [flagByte b]) ∧
  (∀ n, responseContents (.sequence n) = [n]) ∧
  (∀ (r : LinkRecord) (g : BitVec 32), responseContents (.link r g) =
    keyBytes r.key ++ beBytes 2 r.index ++ [ownerByte r.owner, linkStateByte r.state] ++ wordBytes 2 r.cost ++
    wordBytes 3 r.delay ++ wordBytes 3 r.noise ++ [flagByte r.illegalNoise, BitVec.ofNat 8 r.srlg.length] ++
    r.srlg.flatMap (wordBytes 2) ++ maskBytes r.capability ++ r.channels.toList.map slotStateByte ++
    secondsField r.lifetime ++ secondsField r.grace ++ [flagByte r.removalDeferred, flagByte r.discoveredPair] ++
    wordBytes 4 g) ∧
  (∀ (l : List (Nat × LinkKey)) (next : Nat) (g : BitVec 32), responseContents (.links l next g) =
    [BitVec.ofNat 8 l.length] ++ l.flatMap (fun e => beBytes 2 e.1 ++ keyBytes e.2) ++ beBytes 2 next ++ wordBytes 4 g) ∧
  (∀ (r : PathResult) (block : PathBlock → List Byte),
    (∀ b, block b = [BitVec.ofNat 8 b.channel, BitVec.ofNat 8 b.keys.length, 0, 0] ++ beBytes 4 b.cost ++
      beBytes 3 b.delay ++ [0] ++ wordBytes 3 b.noise ++ [0] ++ b.keys.flatMap keyBytes) →
    ∃ flags : Byte,
      (∀ j, flags.getLsbD j = ((j == 0 && r.staleTopology) || (j == 1 && r.overflow) || (j == 2 && r.illegalSkipped) ||
        (j == 3 && r.working.isSome) || (j == 4 && r.protection.isSome) || (j == 5 && !r.handles.isEmpty))) ∧
      responseContents (.path r) = wordBytes 2 r.tag ++ [flags, BitVec.ofNat 8 r.retries] ++
        r.working.toList.flatMap block ++ r.protection.toList.flatMap block ++ r.handles.flatMap handleBytes) ∧
  (∀ (h : Handle) (c : Circuit) (p : Option Handle), responseContents (.circuit h c p) =
    handleBytes h ++ [if c.state = .held then 1 else 2, BitVec.ofNat 8 c.owner] ++ wordBytes 2 c.tag ++
    [BitVec.ofNat 8 c.firstSlot, BitVec.ofNat 8 c.width, BitVec.ofNat 8 c.path.length] ++
    c.path.flatMap (fun x => keyBytes x.key ++ beBytes 2 x.index) ++ [roleByte c.role] ++
    presence 2 (p.map handleBytes) ++ [flagByte c.affected] ++ secondsField c.hold) ∧
  (∀ (n : DegreeNo) (d : Degree), responseContents (.degree n d) =
    [BitVec.ofNat 8 n, flagByte d.config.enable, profileByte d.config.profile] ++ wordBytes 2 d.config.cost ++
    maskBytes d.config.capability ++ [BitVec.ofNat 8 d.config.srlg.length] ++ d.config.srlg.flatMap (wordBytes 2) ++
    [BitVec.ofNat 8 d.config.tries, BitVec.ofNat 8 d.config.lossDeclare] ++ beBytes 2 d.config.holdDown ++
    [degreeStateByte d.state, BitVec.ofNat 8 d.triesRemaining] ++ wordBytes 4 d.farNode ++ [d.farIface] ++
    maskBytes d.farCapability ++ maskBytes d.farOccupied ++
    [BitVec.ofNat 8 d.siteCount, BitVec.ofNat 8 d.chain.length] ++
    d.chain.flatMap (fun x => wordBytes 4 x.id ++ wordBytes 2 x.span ++ wordBytes 3 x.delay ++ wordBytes 3 x.raw ++
      [flagByte x.alarm]) ++
    presence 24 (d.installedPair.map fun p => keyBytes p.outgoing ++ keyBytes p.ret) ++
    [flagByte d.pendingInstall.isSome, flagByte d.recovery, BitVec.ofNat 8 d.missCount, BitVec.ofNat 8 d.errorRun,
      d.probeTimeouts, d.erroredAnswers, d.carrierDrops, flagByte d.overflowHold, flagByte d.underflowHold,
      flagByte d.illegalHold, flagByte d.overlap])

/-- The kind code and contents of each notice (Tables 8-2 and 10-6). -/
def NoticeLayouts : Prop :=
  (∀ k st r, noticeContents (.linkChanged k st r) = (1, keyBytes k ++ [linkStateByte st, reasonByte r])) ∧
  (∀ c f w, noticeContents (.classChanged c f w) = (2, [BitVec.ofNat 8 c] ++ wordBytes 3 f ++ [BitVec.ofNat 8 w])) ∧
  (∀ h tag role first width p, noticeContents (.holdExpired h tag role first width p) =
    (3, handleBytes h ++ wordBytes 2 tag ++ [roleByte role, BitVec.ofNat 8 first, BitVec.ofNat 8 width] ++
      presence 2 (p.map handleBytes))) ∧
  (∀ h tag role i k st, noticeContents (.circuitAffected h tag role i k st) =
    (4, handleBytes h ++ wordBytes 2 tag ++ [roleByte role, if i = .affected then 1 else 2] ++ keyBytes k ++
      [linkStateByte st])) ∧
  (∀ d old new r, noticeContents (.degreeEvent d old new r) =
    (5, [BitVec.ofNat 8 d, degreeStateByte old, degreeStateByte new, degreeReasonByte r])) ∧
  (∀ d c, noticeContents (.carrier d c) = (6, [BitVec.ofNat 8 d, carrierByte c])) ∧
  (∀ d c, noticeContents (.counterWrap d c) = (7, [BitVec.ofNat 8 d, counterByte c]))

/-! ## Start-up -/

/-- One degree block of an image (section 10.7). -/
structure ImageBlock where
  profile     : Byte
  tries       : Byte
  lossDeclare : Byte
  count       : Byte
  cost        : BitVec 16
  holdDown    : BitVec 16
  places      : Vector (BitVec 16) 4
  capability  : SlotMask

/-- The fields of an image, with its four bytes that are not read (Table 10-13). -/
structure Image where
  localId : NodeId
  ports   : Byte
  enables : Byte
  unread  : Vector Byte 4
  blocks  : Vector ImageBlock 8

/-- The 28 bytes of a degree block. -/
def ImageBlock.bytes (b : ImageBlock) : List Byte :=
  [b.profile, b.tries, b.lossDeclare, b.count] ++ wordBytes 2 b.cost ++ wordBytes 2 b.holdDown ++
  b.places.toList.flatMap (wordBytes 2) ++ maskBytes b.capability

/-- The 244 bytes of an image, its check value over the other 240. -/
def Image.bytes (x : Image) : List Byte :=
  let front : List Byte := ([0x53, 0x38, 0x31, 0x34, 0, 244] : List Byte) ++ [x.unread[0], x.unread[1]] ++
    wordBytes 4 x.localId ++ [x.ports, x.enables, x.unread[2], x.unread[3]] ++ x.blocks.toList.flatMap ImageBlock.bytes
  front ++ crcBytes front

/-- An enabled degree without timers once a discovery started: IDLE without a local id, EXHAUSTED without tries, otherwise
PROBING; a dark line is timed, and with a loss-declare time of 0 it takes IDLE and PROBING to LOST at once (R110, R131, R132). -/
def started (localId : NodeId) (x : Degree) : Degree :=
  let y : Degree := { x with
    lossTimer := if x.carrier = .absent ∧ x.config.lossDeclare ≠ 0 then some (x.config.lossDeclare * 100) else none
    triesRemaining := if localId = 0 then x.triesRemaining else x.config.tries }
  if localId ≠ 0 ∧ x.config.tries = 0 then { y with state := .exhausted }
  else if x.carrier = .absent ∧ x.config.lossDeclare = 0 then { y with state := .lost, recovery := true }
  else if localId = 0 then { y with state := .idle }
  else { y with state := .probing, outstanding := some .ident }

/-! ## Ports (chapter 7, R165) -/

/-- How many response slots are reserved or filled. -/
def Port.busySlots (x : Port) : Nat := (List.finRange 8).countP fun k => x.slots[k] ≠ .free

/-- How many CREDIT frames wait. -/
def creditFrames (l : List LinkFrame) : Nat := l.countP fun f => f == .credit

/-- One port record is sound. -/
structure Port.Sound (x : Port) : Prop where
  /-- R153: queue and outstanding credits make 8 in ACTIVE. -/
  creditSum : x.state = .active → x.queue.length + x.credits = 8
  /-- R154: no command waits while a slot is free. -/
  prompt    : x.state = .active → x.queue = [] ∨ x.freeSlot = none
  /-- Table 7-1: grid and response credit are present in ACTIVE. -/
  present   : x.state = .active → x.grid ≠ none ∧ x.responseCredit ≠ .absent
  /-- Tables 7-1 and 8-1: outside ACTIVE the port holds nothing for its agent. -/
  cleared   : x.state ≠ .active → x.grid = none ∧ x.credits = 0 ∧ x.queue = [] ∧ x.responseCredit = .absent ∧
    x.notices = [] ∧ x.lost = 0 ∧ x.filter = [] ∧ x.subscription = 0 ∧ creditFrames x.linkFrames = 0
  /-- R161: no link frame waits in DOWN. -/
  down      : x.state = .down → x.linkFrames = []
  /-- R159: each CREDIT frame that waits stands for a slot in use, so at most 8 wait. -/
  frames    : creditFrames x.linkFrames ≤ x.busySlots
  /-- R159: at most one INIT waits. -/
  oneInit   : x.linkFrames.length ≤ creditFrames x.linkFrames + 1
  /-- The capacities of Tables 7-1 and 8-1. -/
  bounds    : x.notices.length ≤ 16 ∧ x.lost ≤ 255 ∧ x.errors ≤ 65535 ∧ x.filter.length ≤ 4
  /-- R158: limited credit is at most 255. -/
  credit    : ∀ n, x.responseCredit = .limited n → n ≤ 255

/-- The ports are sound: each record is, ports are held DOWN outside READY, and a port outside DOWN is enabled and has its
link up (R148, R149, R164). -/
structure PortInv (s : State) : Prop where
  each  : ∀ p, (s.port p).Sound
  ready : s.loadState ≠ .ready → ∀ p, (s.port p).state = .down
  open_ : ∀ p, (s.port p).state ≠ .down → (s.port p).linkUp = true ∧ s.portEnable.getLsbD p = true

/-! ## Path engine (R50, R52, R53, R156) -/

/-- The pending lists and the response slots of their requests are sound. -/
structure EngineInv (s : State) : Prop where
  /-- R53: a free engine leaves no request QUEUED. -/
  busy     : s.running = none → ∀ p, s.queuedOf p = []
  /-- R52: at most 4 records, no tag twice. -/
  room     : ∀ p, (s.pendingList p).length ≤ 4 ∧ ((s.pendingList p).map (·.tag)).Nodup
  /-- R156: each pending request has a response slot of its own, reserved for it, on an ACTIVE port. -/
  slots    : ∀ p, ((s.pendingList p).map (·.slot)).Nodup ∧
    ∀ q ∈ s.pendingList p, (s.port p).state = .active ∧ (s.port p).slots[q.slot] = .reserved q.ref 6
  /-- R50: the clamped fields. -/
  clamped  : ∀ p, ∀ q ∈ s.pendingList p, (q.width = 1 ∨ q.width = 2) ∧ 1 ≤ q.maxHops ∧ q.maxHops ≤ 16 ∧
    1 ≤ q.holdTime ∧ q.holdTime ≤ 120 ∧ q.retries ≤ 255
  /-- R50 step 5, R73: a QUEUED record has run no search. -/
  fresh    : ∀ p, ∀ q ∈ s.queuedOf p,
    q.overflow = false ∧ q.illegalSkipped = false ∧ q.retries = 0 ∧ q.captured = none

/-! ## Topology store (R1, R5, Tables 1-2 and 1-3) -/

/-- A key of a link: both ids nonzero, and different (Table 1-2). -/
def keyLegal (k : LinkKey) : Prop := k.fromNode ≠ 0 ∧ k.toNode ≠ 0 ∧ k.fromNode ≠ k.toNode

/-- A link names a node as an endpoint. -/
def keyNames (k : LinkKey) (id : NodeId) : Bool := k.fromNode == id || k.toNode == id

/-- Links stand in strictly rising index. -/
def linksRising (l : List LinkRecord) : Prop := l.Pairwise fun a b => a.index < b.index

/-- Nodes stand in strictly rising index. -/
def nodesRising (l : List NodeRecord) : Prop := l.Pairwise fun a b => a.index < b.index

/-- One link record is sound (Tables 1-2 and 1-3). -/
structure LinkRecord.Sound (r : LinkRecord) : Prop where
  key      : keyLegal r.key
  index    : r.index < 1024
  /-- Table 1-3: HOLDDOWN is not reachable for an agent's record, nor STALE for DISCOVERY's. -/
  agent    : r.owner ≠ .discovery → r.state ≠ .holddown
  found    : r.owner = .discovery → r.state ≠ .stale
  /-- Table 1-2: a lifetime runs for agent-owned links not in STALE, a grace in STALE alone. -/
  lifetime : r.lifetime.isSome = true ↔ r.owner ≠ .discovery ∧ r.state ≠ .stale
  grace    : r.grace.isSome = true → r.state = .stale
  /-- ILLEGAL_NOISE marks an illegal noise field. -/
  noise    : r.illegalNoise = !figLegal r.noise

/-- The data of a pair can be installed (R115). -/
def PairData.sound (x : PairData) : Prop :=
  (x.state = .up ∨ x.state = .degraded) ∧ x.illegalNoise = !figLegal x.noise

/-- The node table and the link table are sound, and the degree controllers hold nothing that an install could spoil them
with. -/
structure StoreInv (s : State) : Prop where
  /-- R1: indexes 0 to 255, no id twice, no id 0. -/
  nodes     : nodesRising s.nodes ∧ (∀ n ∈ s.nodes, n.index ≤ 255 ∧ n.id ≠ 0) ∧ (s.nodes.map (·.id)).Nodup
  /-- R1, Table 1-1: index 0 is the local node's, and no other's. -/
  localNode : (∀ n ∈ s.nodes, (n.kind = .localNode ↔ n.index = 0) ∧ (n.index = 0 ↔ n.id = s.localId)) ∧
    (s.localId ≠ 0 → ∃ n ∈ s.nodes, n.id = s.localId)
  /-- R5: strictly rising indexes, no key twice. -/
  links     : linksRising s.links ∧ (s.links.map (·.key)).Nodup ∧ ∀ r ∈ s.links, r.Sound
  /-- R1: the reference count is the number of records that name the node; every endpoint is a node. -/
  refs      : ∀ n ∈ s.nodes, n.refs = s.links.countP fun r => keyNames r.key n.id
  endpoints : ∀ r ∈ s.links, (s.nodeById r.key.fromNode).isSome ∧ (s.nodeById r.key.toNode).isSome
  /-- R3: a REMOTE node is named by some link. -/
  remote    : ∀ n ∈ s.nodes, n.kind = .remote → 1 ≤ n.refs
  /-- R27, R176: the store is empty in LOADING, and nothing reaches it. -/
  loading   : s.loadState = .loading → s.nodes = [] ∧ s.links = [] ∧ s.localId = 0 ∧
    (∀ p, (s.port p).state = .down) ∧ ∀ d, (s.degree d).holdDownTimer = none
  /-- R110, R111: a discovery runs for a named local node, and a collection towards another node. -/
  probing   : ∀ d, (s.degree d).state = .probing → s.localId ≠ 0
  collecting : ∀ d, (s.degree d).state = .collecting →
    s.localId ≠ 0 ∧ (s.degree d).farNode ≠ 0 ∧ (s.degree d).farNode ≠ s.localId
  /-- R104, R115: an installed pair has legal keys, each the other's reverse; a pending install has installable data. -/
  pair      : ∀ d, ∀ p, (s.degree d).installedPair = some p →
    keyLegal p.outgoing ∧ keyLegal p.ret ∧ p.outgoing.fromNode = p.ret.toNode ∧ p.outgoing.toNode = p.ret.fromNode
  install   : ∀ d, ∀ x, (s.degree d).pendingInstall = some x → x.sound

/-! ## Slots in use (R79, R82) -/

/-- The slot state that a circuit entry gives its slots (R82). -/
def Circuit.slotState (e : Circuit) (c : CircuitNo) : SlotState :=
  match e.state with
  | .held => .held c
  | .lit => .lit c

/-- Slot `i` is in the slot range of an entry (R79). -/
def Circuit.covers (e : Circuit) (i : Nat) : Prop := e.firstSlot ≤ i ∧ i < e.firstSlot + e.width

/-- The circuit table and the channel maps correspond (R82), and no search can break that. -/
structure OccupancyInv (s : State) : Prop where
  rising   : linksRising s.links
  /-- Every slot of an entry, on each link of its path, shows that entry's state and index. -/
  shown    : ∀ c e, s.circuit c = some e → ∀ h ∈ e.path, 1 ≤ e.width ∧ e.firstSlot + e.width ≤ 96 ∧
    ∃ r ∈ s.links, r.index = h.index ∧ r.key = h.key ∧ ∀ i : Fin 96, e.covers i → r.channels[i] = e.slotState c
  /-- A slot is HELD or LIT only while an entry in that state names its link and the slot. -/
  backed   : ∀ r ∈ s.links, ∀ i : Fin 96, r.channels[i].used = true →
    ∃ c e, s.circuit c = some e ∧ r.channels[i] = e.slotState c ∧ e.covers i ∧ ∃ h ∈ e.path, h.index = r.index
  /-- A pending request claims at least one slot. -/
  width    : ∀ p, ∀ q ∈ s.pendingList p, 1 ≤ q.width
  /-- R64: the labels of a protection search avoid the links of the working path it protects. -/
  diverse  : ∀ run, s.running = some run → ∀ w, run.protecting = some w → ∀ l ∈ run.frontier ++ run.settled,
    ∀ p, l.pred = some p → p.link.key ∉ w.links.map (·.key)

/-! ## Degrees (Tables 5-1 and 5-2, chapter 6) -/

/-- The outstanding probe is one that Table 5-2 gives the state; in COLLECTING the batches before it brought at most 5 sites
each (R112). -/
def Degree.probeFits (x : Degree) : Prop :=
  match x.state with
  | .probing => x.outstanding = some .ident
  | .collecting => ∃ b, b ≤ 2 ∧ x.outstanding = some (.chain b) ∧ x.chain.length ≤ 5 * b
  | .up | .degraded | .holddown => x.outstanding = none ∨ x.outstanding = some .keepalive
  | .disabled | .idle | .lost | .exhausted | .fault | .mismatch => x.outstanding = none

/-- The configured fields are in range (R122). -/
def DegreeConfig.legal (c : DegreeConfig) : Prop :=
  c.tries ≤ 15 ∧ c.lossDeclare ≤ 100 ∧ c.holdDown ≤ 600 ∧ srlgBad c.srlg = false

/-- No timer of the degree runs. -/
def Degree.still (x : Degree) : Prop :=
  x.probeTimer = none ∧ x.lossTimer = none ∧ x.settleTimer = none ∧ x.intervalTimer = none ∧ x.holdDownTimer = none

/-- One degree record is sound. -/
structure Degree.Sound (x : Degree) : Prop where
  config    : x.config.legal
  tries     : x.triesRemaining ≤ 15
  probe     : x.probeFits
  timer     : x.probeTimer.isSome = true → x.outstanding.isSome = true
  /-- R135: the interval timer runs in service alone. -/
  interval  : x.intervalTimer.isSome = true → inService x.state = true
  /-- R117, R140, Table 5-1: pending install in HOLDDOWN and there alone, the hold-down timer in HOLDDOWN alone. -/
  pending   : x.pendingInstall.isSome = true ↔ x.state = .holddown
  holdDown  : x.holdDownTimer.isSome = true → x.state = .holddown
  /-- R131, R134: a debounce timer runs with the carrier it times. -/
  loss      : x.lossTimer.isSome = true → x.carrier = .absent
  settle    : x.settleTimer.isSome = true → x.carrier = .present
  /-- R125. -/
  disabled  : x.state = .disabled → x.still ∧ x.installedPair = none ∧ x.recovery = false
  /-- R133. -/
  lost      : x.state = .lost → x.recovery = true
  /-- R137, R138, R139. -/
  misses    : x.missCount ≤ 3 ∧ (inService x.state = true → x.missCount ≤ 2)
  errorRun  : x.errorRun ≤ 5 ∧ (x.state = .up → x.errorRun ≤ 4) ∧ (x.state = .holddown → x.errorRun = 0)
  /-- Table 5-1. -/
  sites     : x.chain.length ≤ 15 ∧ x.siteCount ≤ 15

/-- The degrees are sound, and stand as the load state says (R128, R129, R176). -/
structure DegreeInv (s : State) : Prop where
  each    : ∀ d, (s.degree d).Sound
  ports   : s.loadState ≠ .ready → ∀ p, (s.port p).state = .down
  /-- Before READY every degree is as at power-on but for its configuration. -/
  loading : (s.loadState = .loading ∨ s.loadState = .resetFromLoading) → ∀ d, (s.degree d).state = .disabled
  /-- During a warm reset every degree is IDLE or DISABLED, with no timer running. -/
  reset   : s.loadState = .resetFromReady →
    ∀ d, ((s.degree d).state = .idle ∨ (s.degree d).state = .disabled) ∧ (s.degree d).still
  /-- From READY on a degree is DISABLED exactly while its enable is no (Table 5-1). -/
  enable  : (s.loadState = .ready ∨ s.loadState = .resetFromReady) →
    ∀ d, ((s.degree d).config.enable = false ↔ (s.degree d).state = .disabled)

/-- A sound state: all five invariants hold. -/
structure Sound (s : State) : Prop where
  ports     : PortInv s
  engine    : EngineInv s
  store     : StoreInv s
  occupancy : OccupancyInv s
  degrees   : DegreeInv s

/-! ## Values of impairment figures (R28) -/

/-- The value of a legal figure or zero, in units of 2^-59: `M × 2^(E + 48)`. -/
def figValue (f : IfField) : Nat := if figLegal f then figMantissa f * 2 ^ figCode f else 0

end Sys2Proof.Machine
end

