-- ==== Sys2Proof/Certificates/Slice0/Obligations.lean ====
section
/-! DEFINITION. The statements for the provers. A docstring names the rule of the manual a statement formalises; one that rests on
a choice of the model names its log entry. -/

open Sys2Proof Sys2Proof.Machine

/-! ## The step -/

/-- The command at the front of the queue is taken, and runs on the state with the queue's rest. -/
def Obligations.StepRunsFrontCommand : Prop :=
  ∀ (c : Instr) (rest : List Instr) (s : State),
    step { s with pending := c :: rest } = exec c { s with pending := rest }

/-- The model's choice (log entry 2): on an empty queue 1 ms passes. In LOADING, and in a RESET entered from it, no timer
runs and nothing changes (R176, R181). In READY, and in a RESET entered from READY, every running timer has one ms less; while
none runs out nothing else changes, and where one runs out, and no other, its expiry acts at once as its row does. -/
def Obligations.EmptyQueuePassesOneMillisecond : Prop :=
  ∀ s : State, s.pending = [] →
    (s.loadState = .loading ∨ s.loadState = .resetFromLoading → step s = .next s) ∧
    (s.loadState = .ready ∨ s.loadState = .resetFromReady → ∃ u, OneMsOn s u ∧
      ((∀ r ∈ s.links, ∀ n, (r.lifetime = some n ∨ r.grace = some n) → 2 ≤ n) →
        (∀ c e n, s.circuit c = some e → e.hold = some n → 2 ≤ n) →
        (∀ d n, ((s.degree d).probeTimer = some n ∨ (s.degree d).lossTimer = some n ∨ (s.degree d).settleTimer = some n ∨
          (s.degree d).intervalTimer = some n ∨ (s.degree d).holdDownTimer = some n) → 2 ≤ n) →
        step s = .next u) ∧
      (∀ i, StoreInv s → (∀ j, Due s j ↔ j = i) → step s = exec i u))

/-- POWER_ON leaves every table empty, every class at MAXIF with no writer, the last-served port 3, every sequence number 0,
every degree record with its counters, holds and marks at 0 and every port DOWN with error count 0 (R27, R77, R102, R103,
R148, R165, R176), as `State.reset` has them. What it keeps of the outside, and the values before the configuration, are the
model's choice (log entries 1, 7, 15). -/
def Obligations.PowerOnState : Prop :=
  ∀ s : State, ∃ t, exec .powerOn s = .next t ∧
    t.loadState = .loading ∧ t.localId = 0 ∧ t.nodes = [] ∧ t.links = [] ∧ t.generation = 0 ∧
    (∀ c : Fin 8, t.classes[c] = ⟨figPack 4095 63, none⟩) ∧ t.lastServed = 3 ∧ t.running = none ∧
    (∀ p, t.queuedOf p = []) ∧ (∀ c, t.circuit c = none ∧ t.sequence c = 0) ∧
    (∀ d, t.degree d = { Degree.powerOn with lineCarrier := (s.degree d).lineCarrier }) ∧
    (∀ p, t.port p = { Port.powerOn with sent := (s.port p).sent }) ∧
    Degree.powerOn.outstanding = none ∧ Degree.powerOn.farNode = 0 ∧ Degree.powerOn.chain = [] ∧
    Degree.powerOn.installedPair = none ∧ Degree.powerOn.pendingInstall = none ∧ Degree.powerOn.recovery = false ∧
    Degree.powerOn.probeTimeouts = 0 ∧ Degree.powerOn.erroredAnswers = 0 ∧ Degree.powerOn.carrierDrops = 0 ∧
    Degree.powerOn.still ∧ Port.powerOn.state = .down ∧ Port.powerOn.errors = 0 ∧ Port.powerOn.queue = [] ∧
    Port.powerOn.notices = [] ∧ Port.powerOn.lost = 0 ∧ Port.powerOn.filter = [] ∧ Port.powerOn.subscription = 0 ∧
    t.pending = s.pending ∧ t.warmAsserted = s.warmAsserted ∧ t.probesSent = s.probesSent ∧ t.portEnable = 0

/-! ## Impairment arithmetic -/

/-- R35. COMPARE answers yes for legal figures exactly when `a` is zero, or both are nonzero and the exponent of `a` is less,
or equal with a mantissa not above that of `b`; that is the comparison of the values; no for an illegal operand. The classes are
those of Table 2-1 on the bits of the field, and a legal figure has the value of R28, in units of 2^-59. -/
def Obligations.CompareAgreesWithValues : Prop :=
  ∀ a b : IfField,
    (figCompare a b = true ↔ figLegal a = true ∧ figLegal b = true ∧
      (figClass a = .zero ∨ ∃ ma ca mb cb, figClass a = .legal ma ca ∧ figClass b = .legal mb cb ∧
        (ca < cb ∨ (ca = cb ∧ ma ≤ mb)))) ∧
    (figLegal a = true → figLegal b = true → (figCompare a b = true ↔ figValue a ≤ figValue b)) ∧
    (∀ m c, figClass a = .legal m c ↔ a.extractLsb' 18 6 = 0 ∧ m = (a.extractLsb' 6 12).toNat ∧ 2048 ≤ m ∧
      c = (a.extractLsb' 0 6).toNat) ∧
    (figClass a = .zero ↔ a.extractLsb' 18 6 = 0 ∧ a.extractLsb' 6 12 = 0 ∧ a.extractLsb' 0 6 = 0) ∧
    (figLegal a = true ↔ figClass a ≠ .illegal) ∧
    (∀ m c, figClass a = .legal m c → figValue a = m * 2 ^ c) ∧ (figClass a = .zero → figValue a = 0)

/-- Sections 2.2 and 2.3. ADD of two legal figures is legal and commutative, raises OVERFLOW exactly when the exact sum is
above MAXIF and then returns MAXIF, and otherwise returns a figure not below the exact sum nor above it by more than 1 part in
1024; it is never below an operand. An illegal operand is the result, the first one where both are, with ILLEGAL. -/
def Obligations.AddErrsUpward : Prop :=
  ∀ a b : IfField,
    (figLegal a = true → figLegal b = true →
      figAdd b a = figAdd a b ∧ figLegal (figAdd a b).1 = true ∧ (figAdd a b).2.illegal = false ∧
      (figAdd a b).2.underflow = false ∧
      ((figAdd a b).2.overflow = true ↔ figValue maxIf < figValue a + figValue b) ∧
      ((figAdd a b).2.overflow = true → (figAdd a b).1 = maxIf) ∧
      ((figAdd a b).2.overflow = false →
        figValue a + figValue b ≤ figValue (figAdd a b).1 ∧
        figValue (figAdd a b).1 * 1024 ≤ (figValue a + figValue b) * 1025) ∧
      figCompare a (figAdd a b).1 = true ∧ figCompare b (figAdd a b).1 = true) ∧
    (figLegal a = false → figAdd a b = (a, ⟨false, false, true⟩)) ∧
    (figLegal a = true → figLegal b = false → figAdd a b = (b, ⟨false, false, true⟩))

/-- Section 2.3. MULT of two legal figures raises OVERFLOW exactly when the exact product is above MAXIF, and then returns
MAXIF; raises UNDERFLOW only for a nonzero product below 2^-48, and then returns zero; otherwise returns a legal figure not
below the exact product nor above it by more than 1 part in 2048. NORMALIZE, in its two uses, returns a legal figure, exact
below 4096 and otherwise not below the value nor above it by more than 1 part in 2048. -/
def Obligations.ConversionArithmeticErrsUpward : Prop :=
  (∀ a b : IfField, figLegal a = true → figLegal b = true →
    (figMult a b).2.illegal = false ∧ figLegal (figMult a b).1 = true ∧
    ((figMult a b).2.overflow = true ↔ figValue maxIf * 2 ^ 59 < figValue a * figValue b) ∧
    ((figMult a b).2.overflow = true → (figMult a b).1 = maxIf ∧ (figMult a b).2.underflow = false) ∧
    ((figMult a b).2.underflow = true →
      (figMult a b).1 = 0 ∧ 0 < figValue a * figValue b ∧ figValue a * figValue b < 2 ^ 11 * 2 ^ 59) ∧
    ((figMult a b).2.overflow = false → (figMult a b).2.underflow = false →
      figValue a * figValue b ≤ figValue (figMult a b).1 * 2 ^ 59 ∧
      figValue (figMult a b).1 * 2 ^ 59 * 2048 ≤ figValue a * figValue b * 2049)) ∧
  (∀ n s : Nat, (s = 24 ∧ n < 2 ^ 24 ∨ s = 4 ∧ n < 2 ^ 16) →
    figLegal (figNormalize n s) = true ∧
    n * 2 ^ 59 ≤ figValue (figNormalize n s) * 2 ^ s ∧
    (n < 4096 → figValue (figNormalize n s) * 2 ^ s = n * 2 ^ 59) ∧
    figValue (figNormalize n s) * 2 ^ s * 2048 ≤ n * 2 ^ 59 * 2049)

/-- Section 2.4. The noise of a chain is the ADD of its sites' noise from zero, in reported order; a site gives its raw report under
NATIVE, its normalized report under LINEAR24, and its report times its span under PERKM. OVERFLOW and UNDERFLOW are those of
these steps. Under NATIVE or PERKM the first illegal report is the noise, marked illegal, with ILLEGAL; without one, and under
LINEAR24 always, the noise is legal, unmarked and without ILLEGAL. The delay is the sum of the span delays, saturated at
16,777,215 with OVERFLOW. -/
def Obligations.ConversionKeepsFirstIllegalReport : Prop :=
  (∀ (p : Profile) (before after : List SiteRecord) (x : SiteRecord), p ≠ .linear24 →
    (∀ y ∈ before, figLegal y.raw = true) → figLegal x.raw = false →
    (convertChain p (before ++ x :: after)).noise = x.raw ∧
    (convertChain p (before ++ x :: after)).illegalNoise = true ∧
    (convertChain p (before ++ x :: after)).exceptions.illegal = true) ∧
  (∀ (p : Profile) (chain : List SiteRecord),
    (convertChain p chain).noise = chainNoise p chain ∧
    ((convertChain p chain).exceptions.overflow = true ↔ 16777215 < (chain.map fun x => x.delay.toNat).sum ∨
      ∃ before x after, chain = before ++ x :: after ∧
        (p = .perkm ∧ (figMult x.raw (figNormalize x.span.toNat 4)).2.overflow = true ∨
          (figAdd (chainNoise p before) (siteNoise p x)).2.overflow = true)) ∧
    ((convertChain p chain).exceptions.underflow = true ↔
      p = .perkm ∧ ∃ x ∈ chain, (figMult x.raw (figNormalize x.span.toNat 4)).2.underflow = true)) ∧
  (∀ (p : Profile) (chain : List SiteRecord), (p = .linear24 ∨ ∀ y ∈ chain, figLegal y.raw = true) →
    figLegal (convertChain p chain).noise = true ∧ (convertChain p chain).illegalNoise = false ∧
    (convertChain p chain).exceptions.illegal = false) ∧
  (∀ (p : Profile) (chain : List SiteRecord),
    (convertChain p chain).delay.toNat = min (chain.map fun x => x.delay.toNat).sum 16777215 ∧
    (16777215 < (chain.map fun x => x.delay.toNat).sum → (convertChain p chain).exceptions.overflow = true))

/-! ## Notices -/

/-- R170, R171, R172, with the offer of section 8.2. A LINK CHANGED passes a filter with no entries, or one with an entry that agrees with
the from-node or to-node id in every bit of its mask; a DEGREE EVENT, CARRIER or COUNTER WRAP passes when the subscription mask
names the degree; the other three kinds pass always. An offer leaves a port that is not ACTIVE, or does not want the notice, as it is; where 16 notices wait, the
lost count alone rises, up to 255; otherwise the notice joins the tail with the lost count, which becomes 0. An offer for
every port is taken by each, one for a port by that port alone. -/
def Obligations.NoticesPassFilterAndJoinTheQueue : Prop :=
  (∀ (x : Port) (key : LinkKey) (st : LinkState) (r : LinkReason),
    x.wants (.linkChanged key st r) = true ↔ x.filter = [] ∨ ∃ e ∈ x.filter,
      (∀ i, e.mask.getLsbD i = true → key.fromNode.getLsbD i = e.pattern.getLsbD i) ∨
      (∀ i, e.mask.getLsbD i = true → key.toNode.getLsbD i = e.pattern.getLsbD i)) ∧
  (∀ (x : Port) (d : DegreeNo) (a b : DegreeState) (r : DegreeReason) (c : Carrier) (n : CounterName),
    x.wants (.degreeEvent d a b r) = x.subscription.getLsbD d ∧ x.wants (.carrier d c) = x.subscription.getLsbD d ∧
    x.wants (.counterWrap d n) = x.subscription.getLsbD d) ∧
  (∀ (x : Port) (cls : Fin 8) (f : IfField) (w : AgentId) (h : Handle) (tag : BitVec 16) (role : Role) (first width : Nat)
      (partner : Option Handle) (ind : Indication) (key : LinkKey) (st : LinkState),
    x.wants (.classChanged cls f w) = true ∧ x.wants (.holdExpired h tag role first width partner) = true ∧
    x.wants (.circuitAffected h tag role ind key st) = true) ∧
  (∀ (x : Port) (n : Notice), (x.state ≠ .active ∨ x.wants n = false) → x.offered n = x) ∧
  (∀ (x : Port) (n : Notice), x.state = .active → x.wants n = true → 16 ≤ x.notices.length →
    x.offered n = { x with lost := min (x.lost + 1) 255 }) ∧
  (∀ (x : Port) (n : Notice), x.state = .active → x.wants n = true → x.notices.length < 16 →
    x.offered n = { x with notices := x.notices ++ [⟨n, x.lost, x.moment⟩], lost := 0, moment := x.moment + 1 }) ∧
  (∀ (s : State) (n : Notice) (p : AgentId), (offerAll n s).port p = (s.port p).offered n) ∧
  (∀ (s : State) (n : Notice) (p q : AgentId),
    (offerTo p n s).port q = if q = p then (s.port p).offered n else s.port q)

/-- R173. SET FILTER with more than 4 entries is answered BAD_FIELD and changes no filter or mask; otherwise the port's filter
becomes the entries in their order, its subscription mask the mask, and the answer is OK. Nothing else changes. -/
def Obligations.SetFilterReplacesFilterAndMask : Prop :=
  ∀ (s : State) (a : AgentId) (k : SlotNo) (ref : BitVec 16) (es : List FilterEntry) (m : DegreeMask),
    Heard s a k → es.length ≤ 255 →
    exec (.setFilter a ref es m) s = .next (
      if 4 < es.length then replied a k ⟨ref, 16, .badField, .empty⟩ s
      else s.setPort a { (s.port a).replied k ⟨ref, 16, .ok, .empty⟩ with filter := es, subscription := m })

/-! ## Agent ports -/

/-- R150. An INIT in INIT with grid G50 or G100 makes the port ACTIVE with that grid, the credit declared (0 is unlimited),
the mask, no filter entries, 8 command credits and an ACCEPT placed; any other grid leaves the port in INIT with a REJECT
placed and no field changed; both carry 96 slots, the grids supported and the error count. Nothing else changes. -/
def Obligations.InitAcceptedOrRejected : Prop :=
  (∀ e, initBody (.accept .g50) e = [2, 1, 8, 3, 0, 96] ++ beBytes 2 e ∧
    initBody (.accept .g100) e = [2, 2, 8, 3, 0, 96] ++ beBytes 2 e ∧
    ∀ c, initBody (.reject c) e = [3, c, 0, 3, 0, 96] ++ beBytes 2 e) ∧
  ∀ (s : State) (a : AgentId) (grid credit : Byte) (m : DegreeMask), PortInv s → (s.port a).state = .init →
    (∀ g, (grid = 1 ∧ g = .g50 ∨ grid = 2 ∧ g = .g100) →
      exec (.init a grid credit m) s = .next (s.setPort a { s.port a with
        state := .active, grid := some g, subscription := m, filter := [], credits := 8
        responseCredit := if credit = 0 then .unlimited else .limited credit.toNat
        linkFrames := [.init (.accept g) (s.port a).errors] })) ∧
    (grid ≠ 1 → grid ≠ 2 →
      exec (.init a grid credit m) s = .next (s.setPort a { s.port a with
        linkFrames := [.init (.reject grid) (s.port a).errors] }))

/-- R151 and section 7.8 (Table 7-4). An INIT in ACTIVE is a port reset and then the INIT taken in INIT. A port reset clears
what the port holds for its agent and keeps the error count and link status; it removes the agent's pending requests and HELD
circuits, keeps every LIT circuit and every other agent's, makes the agent's links STALE, each that was not STALE without
lifetime and with a grace of 60 s, and leaves the other ports' states, credits, queues, grids, filters and masks. In order: the
arbiter acts where the agent's request ran; the HELD circuits are removed in ascending index, each with REMOVED of the deferred
links left unused; the links become STALE in ascending link index, each with its LINK CHANGED. The generation counter moves by 1
for each link removed and each made STALE. -/
def Obligations.PortResetLeavesNothingOfTheAgent : Prop :=
  ∀ (s : State) (a : AgentId), StoreInv s → (s.port a).state = .active →
    (∀ grid credit m, exec (.init a grid credit m) s = exec (.init a grid credit m) (portReset a .init s)) ∧
    ∀ st, st ≠ .active → ∀ t, t = portReset a st s →
      t.port a = { s.port a with
        state := st, grid := none, credits := 0, queue := [], slots := Vector.replicate 8 .free
        responseCredit := .absent, linkFrames := [], notices := [], lost := 0, filter := [], subscription := 0
        moment := 0 } ∧
      t.queuedOf a = [] ∧ (∀ run, t.running = some run → run.port ≠ a) ∧
      (∀ c e, t.circuit c = some e → e.state = .held → e.owner ≠ a) ∧
      (∀ c e, s.circuit c = some e → (e.state = .lit ∨ e.owner ≠ a) → ∃ e', t.circuit c = some e' ∧
        e'.state = e.state ∧ e'.owner = e.owner ∧ e'.path = e.path ∧ e'.firstSlot = e.firstSlot ∧ e'.width = e.width) ∧
      (∀ r' ∈ t.links, r'.owner = .agent a → r'.state = .stale ∧ ∃ r ∈ s.links, r.index = r'.index ∧ r.key = r'.key ∧
        (r.state ≠ .stale → r'.lifetime = none ∧ r'.grace = some 60000) ∧
        (r.state = .stale → r'.lifetime = r.lifetime ∧ r'.grace = r.grace)) ∧
      (∀ r ∈ s.links, r.owner = .agent a → r.removalDeferred = false → ∃ r' ∈ t.links, r'.index = r.index ∧ r'.key = r.key) ∧
      (∀ p, p ≠ a → (t.port p).state = (s.port p).state ∧ (t.port p).credits = (s.port p).credits ∧
        (t.port p).queue = (s.port p).queue ∧ (t.port p).grid = (s.port p).grid ∧
        (t.port p).responseCredit = (s.port p).responseCredit ∧ (t.port p).linkFrames = (s.port p).linkFrames ∧
        (t.port p).filter = (s.port p).filter ∧ (t.port p).subscription = (s.port p).subscription ∧
        (t.port p).errors = (s.port p).errors) ∧
      t.sequences = s.sequences ∧ t.classes = s.classes ∧ t.degrees = s.degrees ∧ LinesKept s t ∧
      t.generation = s.generation + BitVec.ofNat 32 ((s.links.length - t.links.length) + s.links.countP fun r =>
        r.owner == .agent a && r.state != .stale && t.links.any fun r' => r'.index == r.index) ∧
      ∃ u v,
        (∀ x, x = (s.setPort a (t.port a)).setQueued a [] →
          (∀ run, s.running = some run → run.port = a → exec .requestArbiter { x with running := none } = .next u) ∧
          ((∀ run, s.running = some run → run.port ≠ a) → u = x)) ∧
        HoldsRemoved a (List.finRange 64) u v ∧
        t = (v.links.filter fun r => r.owner == .agent a && r.state != .stale).foldl (fun y r => madeStale r y) v

/-- Sections 7.2 and 7.8. A link that reports itself up takes an enabled DOWN port of a READY part to INIT with an opening
INIT placed, and is otherwise recorded alone. A link that reports itself down is recorded in DOWN, takes an INIT port to DOWN
with its link frames discarded, and is a port reset to DOWN in ACTIVE. -/
def Obligations.LinkStatusMovesThePort : Prop :=
  ∀ (s : State) (a : AgentId), PortInv s →
    (((s.port a).state = .down ∧ s.portEnable.getLsbD a = true ∧ s.loadState = .ready) →
      exec (.linkUp a) s = .next (s.setPort a { s.port a with
        linkUp := true, state := .init, linkFrames := [.init .opening (s.port a).errors] })) ∧
    (¬ ((s.port a).state = .down ∧ s.portEnable.getLsbD a = true ∧ s.loadState = .ready) →
      exec (.linkUp a) s = .next (s.setPort a { s.port a with linkUp := true })) ∧
    ((s.port a).state = .down → exec (.linkDown a) s = .next (s.setPort a { s.port a with linkUp := false })) ∧
    ((s.port a).state = .init → exec (.linkDown a) s = .next (s.setPort a { s.port a with
      linkUp := false, state := .down, linkFrames := [] })) ∧
    ((s.port a).state = .active →
      exec (.linkDown a) s = .next (portReset a .down (s.setPort a { s.port a with linkUp := false })))

/-- Sections 7.2 to 7.4 and 7.6. A CREDIT frame in ACTIVE adds its count to limited response credit, up to 255, and has no effect
under unlimited credit. A COMMAND frame in ACTIVE with credit, every slot in use, joins the tail of the command queue (held as
judged: log entry 4) and uses a credit; heard at once and malformed it is answered BAD_FIELD with its reference and kind as received, its credit given back.
A COMMAND without credit, and either frame in INIT, is a protocol error and nothing else; in DOWN both are discarded. -/
def Obligations.CreditAndCommandFramesAreTaken : Prop :=
  (∀ (s : State) (a : AgentId) (count : Byte),
    (∀ v, (s.port a).state = .active → (s.port a).responseCredit = .limited v →
      exec (.credit a count) s = .next (s.setPort a { s.port a with
        responseCredit := .limited (min (v + count.toNat) 255) })) ∧
    ((s.port a).state = .active → (s.port a).responseCredit = .unlimited → exec (.credit a count) s = .next s) ∧
    ((s.port a).state = .init → exec (.credit a count) s = .next (s.setPort a { s.port a with
      errors := min ((s.port a).errors + 1) 65535 })) ∧
    ((s.port a).state = .down → exec (.credit a count) s = .next s)) ∧
  (∀ (s : State) (a : AgentId) (body : List Byte), body.length ≤ 3200 →
    ((s.port a).state = .active → (s.port a).credits ≠ 0 → (s.port a).freeSlot = none →
      exec (.command a body) s = .next (s.setPort a { s.port a with
        credits := (s.port a).credits - 1, queue := (s.port a).queue ++ [judgeBody body] })) ∧
    (∀ k ref kind, Heard s a k → judgeBody body = .malformed ref kind →
      exec (.command a body) s = .next (replied a k ⟨ref, kind, .badField, .empty⟩ s)) ∧
    (((s.port a).state = .init ∨ (s.port a).state = .active ∧ (s.port a).credits = 0) →
      exec (.command a body) s = .next (s.setPort a { s.port a with
        errors := min ((s.port a).errors + 1) 65535 })) ∧
    ((s.port a).state = .down → exec (.command a body) s = .next s))

/-- Sections 7.2, 7.7, 10.3 and 10.4. A delivered frame passes the frame check exactly when it is laid out by Table 10-2 around a
body of at most 3200 bytes: of kind 3 with any body, of kind 1 with the body of Table 10-4, of kind 2 with that of Table 10-5, their
pads zero. One that passes acts as its row (the model's choice, log entry 20). One that fails, or is of another kind, raises the
protocol error count by 1, up to 65535, in INIT and ACTIVE, and is discarded in DOWN. Nothing else changes. -/
def Obligations.FrameCheckIsExactAndCounted : Prop :=
  (∀ body : List Byte, body.length ≤ 3200 →
    judgeFrame (agentFrame 3 body) = .command (judgeBody body) ∧
    (body.length ≠ 4 → judgeFrame (agentFrame 1 body) = .bad ∧ judgeFrame (agentFrame 2 body) = .bad) ∧
    ∀ kind : Byte, kind ≠ 1 → kind ≠ 2 → kind ≠ 3 → judgeFrame (agentFrame kind body) = .bad) ∧
  (∀ (g c b p : Byte) (m : DegreeMask), (∀ i : Fin 8, m.getLsbD i = b.getLsbD (7 - i)) →
    judgeFrame (agentFrame 1 [g, c, b, p]) = if p = 0 then .init g c m else .bad) ∧
  (∀ n x y z : Byte, judgeFrame (agentFrame 2 [n, x, y, z]) = if x = 0 ∧ y = 0 ∧ z = 0 then .credit n else .bad) ∧
  (∀ bytes : List Byte, judgeFrame bytes ≠ .bad →
    ∃ kind body, bytes = agentFrame kind body ∧ body.length ≤ 3200 ∧ (kind = 1 ∨ kind = 2 ∨ kind = 3)) ∧
  (∀ (s : State) (a : AgentId) (bytes : List Byte),
    (∀ g c m, judgeFrame bytes = .init g c m → exec (.frameCheckFailure a bytes) s = exec (.init a g c m) s) ∧
    (∀ n, judgeFrame bytes = .credit n → exec (.frameCheckFailure a bytes) s = exec (.credit a n) s) ∧
    (∀ body, bytes = agentFrame 3 body → body.length ≤ 3200 →
      exec (.frameCheckFailure a bytes) s = exec (.command a body) s) ∧
    (judgeFrame bytes = .bad → exec (.frameCheckFailure a bytes) s = .next (
      if (s.port a).state = .down then s
      else s.setPort a { s.port a with errors := min ((s.port a).errors + 1) 65535 })))

/-- Sections 7.3 and 7.4. TAKE on an ACTIVE port with a command at the head of its queue and `k` the lowest free slot: the command
leaves the queue, one credit and a CREDIT frame are given back, the slot is reserved with its reference and kind, and the owner acts;
a malformed command is answered BAD_FIELD there. Then the commands behind it are taken in the same way. The owner acts as on the
command heard at once, whatever waits behind it. Outside ACTIVE, with an empty queue or with no free slot nothing changes. -/
def Obligations.TakePassesTheHeadToItsOwner : Prop :=
  (∀ (x : Port) (k : SlotNo), x.freeSlot = some k ↔ x.slots[k] = .free ∧ ∀ j < k, x.slots[j] ≠ .free) ∧
  (∀ x : Port, x.freeSlot = none ↔ ∀ k : SlotNo, x.slots[k] ≠ .free) ∧
  (∀ (s : State) (a : AgentId) (k : SlotNo) (ref : BitVec 16) (c : AgentCommand), Heard s a k → c.wellFormed = true →
    exec (agentRow a ref c) s = .next (passToOwner ⟨a, k, ref, commandCode c⟩ c (taken a k ref (commandCode c) s))) ∧
  ∀ (s : State) (a : AgentId),
    (∀ k c rest u, (s.port a).state = .active → (s.port a).queue = c :: rest → (s.port a).freeSlot = some k →
      (∀ ref cmd, c = .wellFormed ref cmd →
        u = passToOwner ⟨a, k, ref, commandCode cmd⟩ cmd (s.setPort a { s.port a with
          queue := rest, credits := (s.port a).credits + 1, linkFrames := (s.port a).linkFrames ++ [.credit]
          slots := (s.port a).slots.set k (.reserved ref (commandCode cmd)) })) →
      (∀ ref kind, c = .malformed ref kind →
        u = s.setPort a { s.port a with
          queue := rest, credits := (s.port a).credits + 1, linkFrames := (s.port a).linkFrames ++ [.credit]
          slots := (s.port a).slots.set k (.filled ⟨ref, kind, .badField, .empty⟩ (s.port a).moment)
          moment := (s.port a).moment + 1 }) →
      exec (.take a) s = exec (.take a) u ∧ (rest = [] → exec (.take a) s = .next u) ∧
      ∀ ref cmd v, c = .wellFormed ref cmd → cmd.wellFormed = true →
        exec (agentRow a ref cmd) (s.setPort a { s.port a with queue := [], credits := (s.port a).credits + 1 }) = .next v →
        u = withWaiting a rest v) ∧
    (((s.port a).state ≠ .active ∨ (s.port a).queue = [] ∨ (s.port a).freeSlot = none) →
      exec (.take a) s = .next s)

/-- Section 7.6. SEND sends the oldest link frame first. Without one, in ACTIVE with response credit, it sends the oldest of the
filled slots and the head of the notice queue: a response frees its slot, a notice leaves the queue, and limited credit goes down by
1. Without credit, or outside ACTIVE without a link frame, nothing is sent. The commands that wait are then taken as by TAKE, which a
freed slot allows (`Sends`). Every frame is laid out by Table 10-2, INIT and CREDIT by Tables 10-3 and 10-5, RESPONSE and
NOTICE by section 10.5, with the codes of Tables 8-3, 10-6 and 10-7 (the places that the tables leave to the order of the
rules: log entry 18; the check value: log entry 9). -/
def Obligations.SendTakesTheOldestFrame : Prop :=
  ∀ (s : State) (a : AgentId),
    (∀ f rest, (s.port a).state ≠ .down → (s.port a).linkFrames = f :: rest →
      Sends a s (s.setPort a { s.port a with
        linkFrames := rest, sent := (s.port a).sent ++ [linkFrameBytes f] })) ∧
    (∀ (k : SlotNo) (r : Response) (m : Nat), (s.port a).state = .active → (s.port a).linkFrames = [] → (s.port a).hasCredit = true →
      (s.port a).slots[k] = .filled r m → (∀ (j : SlotNo) (r' : Response) (m' : Nat), j ≠ k → (s.port a).slots[j] = .filled r' m' → m < m') →
      (∀ n ∈ (s.port a).notices, m < n.moment) →
      Sends a s (s.setPort a { s.port a with
        slots := (s.port a).slots.set k .free, responseCredit := spendCredit (s.port a).responseCredit
        sent := (s.port a).sent ++ [responseBytes r] })) ∧
    (∀ n rest, (s.port a).state = .active → (s.port a).linkFrames = [] → (s.port a).hasCredit = true →
      (s.port a).notices = n :: rest → (∀ (j : SlotNo) (r' : Response) (m' : Nat), (s.port a).slots[j] = .filled r' m' → n.moment < m') →
      Sends a s (s.setPort a { s.port a with
        notices := rest, responseCredit := spendCredit (s.port a).responseCredit
        sent := (s.port a).sent ++ [noticeBytes n] })) ∧
    (((s.port a).state = .down ∨ (s.port a).linkFrames = [] ∧ ((s.port a).state ≠ .active ∨ (s.port a).hasCredit = false ∨
        (s.port a).notices = [] ∧ ∀ (j : SlotNo) (r' : Response) (m' : Nat), (s.port a).slots[j] ≠ .filled r' m')) →
      Sends a s s) ∧
    ((s.port a).hasCredit = true ↔
      (s.port a).responseCredit = .unlimited ∨ ∃ v, (s.port a).responseCredit = .limited v ∧ 1 ≤ v) ∧
    (∀ v, spendCredit (.limited v) = .limited (v - 1)) ∧ spendCredit .unlimited = .unlimited ∧
    (∀ kind body, agentFrame kind body = [kind, 0] ++ beBytes 2 body.length ++ body ++
      crcBytes ([kind, 0] ++ beBytes 2 body.length ++ body)) ∧
    linkFrameBytes .credit = agentFrame 2 [1, 0, 0, 0] ∧ (∀ k e, linkFrameBytes (.init k e) = agentFrame 1 (initBody k e)) ∧
    (∀ e, initBody .opening e = [1, 0, 8, 3, 0, 96] ++ beBytes 2 e ∧
      initBody (.accept .g50) e = [2, 1, 8, 3, 0, 96] ++ beBytes 2 e ∧
      initBody (.accept .g100) e = [2, 2, 8, 3, 0, 96] ++ beBytes 2 e ∧
      ∀ c, initBody (.reject c) e = [3, c, 0, 3, 0, 96] ++ beBytes 2 e) ∧
    (∀ r : Response, responseBytes r =
      agentFrame 4 (wordBytes 2 r.ref ++ [r.kind, completionByte r.code] ++ responseContents r.body)) ∧
    (∀ n : QueuedNotice, noticeBytes n = agentFrame 5
      ([(noticeContents n.notice).1, BitVec.ofNat 8 n.lost, 0, 0] ++ (noticeContents n.notice).2)) ∧
    FieldCodes ∧ ResponseLayouts ∧ NoticeLayouts

/-! ## Topology store -/

/-- Section 1.3 (rules 7 and 8). An ADVERTISE LINK with good fields under a key that is absent, with room, creates the record at
the lowest free index with exactly the contents advertised, every slot FREE or FOREIGN by the occupied mask; it raises the
endpoints' reference counts, moves the counter by 1, offers CREATED to every port and then answers OK (that the notice
comes first is the model's reading, log entry 10). Nothing else changes. -/
def Obligations.AdvertiseCreatesLink : Prop :=
  ∀ (s : State) (a : AgentId) (k : SlotNo) (ref : BitVec 16) (p : AdvertiseParams) (st : LinkState) (i : Nat),
    Heard s a k → StoreInv s → Advertisable p st → s.linkByKey p.key = none →
    i < 1024 → (∀ r ∈ s.links, r.index ≠ i) → (∀ j, j < i → ∃ r ∈ s.links, r.index = j) →
    (s.unknownNodes [p.key.fromNode, p.key.toNode]).length ≤ s.freeNodes →
    ∃ t, exec (.advertiseLink a ref p) s = .next t ∧
      t.linkAt i = some
        { key := p.key, index := i, owner := .agent a, state := st, cost := p.cost, delay := p.delay, noise := p.noise
          srlg := p.srlg, capability := p.capability
          channels := Vector.ofFn fun j => if p.occupied.getLsbD j then .foreign else .free
          lifetime := some (lifetimeMs p.lifetime.toNat), grace := none, removalDeferred := false
          illegalNoise := !figLegal p.noise, discoveredPair := false } ∧
      (∀ j, j ≠ i → t.linkAt j = s.linkAt j) ∧ NodesRaised s t p.key ∧ t.generation = s.generation + 1 ∧
      t.port a = (((s.port a).taken k ref 1).offered (.linkChanged p.key st .created)).fill k
        ⟨ref, 1, .ok, .overlap false⟩ ∧
      (∀ q, q ≠ a → t.port q = (s.port q).offered (.linkChanged p.key st .created)) ∧
      t.localId = s.localId ∧ t.degrees = s.degrees ∧ EngineKept s t ∧ CircuitsKept s t ∧ LinesKept s t

/-- Section 1.3 (rules 9, 10 and 11). An ADVERTISE LINK with good fields from the owner, or under another agent's STALE record,
writes the advertised contents over the record: the owner is the sender, HELD and LIT slots stay and the others follow the
occupied mask, lifetime restarts, grace ends, and a STALE record's deferred removal is cleared. The answer is OK, with OVERLAP
exactly when the mask names a HELD or LIT slot. The change is counted and told as `LinkChangeIsCountedAndToldOnce` states,
before the answer (the model's reading, log entry 10). -/
def Obligations.AdvertiseReplacesLink : Prop :=
  ∀ (s : State) (a : AgentId) (k : SlotNo) (ref : BitVec 16) (p : AdvertiseParams) (st : LinkState) (r : LinkRecord),
    Heard s a k → Advertisable p st → s.linkByKey p.key = some r →
    (r.owner = .agent a ∨ ∃ b, r.owner = .agent b ∧ r.state = .stale) →
    ∃ overlap : Bool,
      (overlap = true ↔ ∃ j : Fin 96, p.occupied.getLsbD j = true ∧ r.channels[j].used = true) ∧
      exec (.advertiseLink a ref p) s = .next (answer ⟨a, k, ref, 1⟩ .ok (.overlap overlap)
        (changeLink r
          { r with
            owner := .agent a, state := st, cost := p.cost, delay := p.delay, noise := p.noise, srlg := p.srlg
            capability := p.capability
            channels := Vector.ofFn fun j =>
              if r.channels[j].used then r.channels[j] else if p.occupied.getLsbD j then .foreign else .free
            lifetime := some (lifetimeMs p.lifetime.toNat), grace := none
            removalDeferred := if r.state = .stale then false else r.removalDeferred
            illegalNoise := !figLegal p.noise }
          (taken a k ref 1 s)))

/-- Section 1.3 (rules 7, 8 and 10). A refused ADVERTISE LINK changes nothing: BAD_FIELD for a bad field, NOT_OWNER for a
record of another agent that is not STALE or one of DISCOVERY, TABLE_FULL where no link index or too few node indexes are
free. -/
def Obligations.AdvertiseRefusedChangesNothing : Prop :=
  ∀ (s : State) (a : AgentId) (k : SlotNo) (ref : BitVec 16) (p : AdvertiseParams), Heard s a k → p.srlg.length ≤ 255 →
    ((∀ st, ¬ Advertisable p st) →
      exec (.advertiseLink a ref p) s = .next (replied a k ⟨ref, 1, .badField, .overlap false⟩ s)) ∧
    (∀ st r, Advertisable p st → s.linkByKey p.key = some r → r.owner ≠ .agent a →
      (r.owner = .discovery ∨ r.state ≠ .stale) →
      exec (.advertiseLink a ref p) s = .next (replied a k ⟨ref, 1, .notOwner, .overlap false⟩ s)) ∧
    (∀ st, Advertisable p st → s.linkByKey p.key = none →
      ((∀ i, i < 1024 → ∃ r ∈ s.links, r.index = i) ∨
        s.freeNodes < (s.unknownNodes [p.key.fromNode, p.key.toNode]).length) →
      exec (.advertiseLink a ref p) s = .next (replied a k ⟨ref, 1, .tableFull, .overlap false⟩ s))

/-- Sections 1.3, 1.6 and 1.8. A change of a record is told once, with the first reason of R12's table
that applies, and moves the counter by 1; that a takeover moves it even where the owner alone changes is the model's reading
(log entry 11: R20 over R23). A change of state is then passed to the circuits. A change that R12 does not list is
written without notice or count. A set-state request for a DISCOVERY record is such a change of its state, and one for any
other key does nothing. -/
def Obligations.LinkChangeIsCountedAndToldOnce : Prop :=
  (∀ (old new : LinkRecord) (reason : LinkReason) (s : State),
    ((reason = .takeover ∧ new.owner ≠ old.owner) ∨
      (new.owner = old.owner ∧ reason = .stale ∧ new.state = .stale ∧ old.state ≠ .stale) ∨
      (new.owner = old.owner ∧ (new.state ≠ .stale ∨ old.state = .stale) ∧
        ((reason = .updated ∧ (new.cost ≠ old.cost ∨ new.delay ≠ old.delay ∨ new.noise ≠ old.noise ∨
            new.srlg ≠ old.srlg ∨ new.capability ≠ old.capability)) ∨
          (new.cost = old.cost ∧ new.delay = old.delay ∧ new.noise = old.noise ∧ new.srlg = old.srlg ∧
            new.capability = old.capability ∧
            ((reason = .state ∧ new.state ≠ old.state) ∨
              (new.state = old.state ∧ reason = .foreign ∧
                ∃ i : Fin 96, ¬ (old.channels[i] = .foreign ↔ new.channels[i] = .foreign))))))) →
    changeLink old new s =
      (if new.state ≠ old.state then circuitsFollow new.index new.key new.state else id)
        (offerAll (.linkChanged new.key new.state reason) ((bumpGeneration s).putLink new))) ∧
  (∀ (old new : LinkRecord) (s : State), new.owner = old.owner → new.state = old.state → new.cost = old.cost →
    new.delay = old.delay → new.noise = old.noise → new.srlg = old.srlg → new.capability = old.capability →
    (∀ i : Fin 96, old.channels[i] = .foreign ↔ new.channels[i] = .foreign) →
    changeLink old new s = s.putLink new) ∧
  (∀ (key : LinkKey) (st : LinkState) (r : LinkRecord) (s : State), s.linkByKey key = some r → r.owner = .discovery →
    setLinkState key st s = changeLink r { r with state := st } s) ∧
  (∀ (key : LinkKey) (st : LinkState) (s : State), (∀ r, s.linkByKey key = some r → r.owner ≠ .discovery) →
    setLinkState key st s = s)

/-- Section 1.4 (rule 13). WITHDRAW LINK: NO_ENTRY for an absent key, NOT_OWNER for a record that the sender does not own, IN_USE for an own
record with a HELD or LIT slot, each with no effect; any other own record is removed (rule 14) with REMOVED offered to
every port before the OK (the model's choice of order, log entry 10). -/
def Obligations.WithdrawRemovesLinkNotInUse : Prop :=
  ∀ (s : State) (a : AgentId) (k : SlotNo) (ref : BitVec 16) (key : LinkKey), Heard s a k →
    (s.linkByKey key = none →
      exec (.withdrawLink a ref key) s = .next (replied a k ⟨ref, 2, .noEntry, .empty⟩ s)) ∧
    (∀ r, s.linkByKey key = some r → r.owner ≠ .agent a →
      exec (.withdrawLink a ref key) s = .next (replied a k ⟨ref, 2, .notOwner, .empty⟩ s)) ∧
    (∀ r, s.linkByKey key = some r → r.owner = .agent a → (∃ i : Fin 96, r.channels[i].used = true) →
      exec (.withdrawLink a ref key) s = .next (replied a k ⟨ref, 2, .inUse, .empty⟩ s)) ∧
    (∀ r, StoreInv s → s.linkByKey key = some r → r.owner = .agent a → (∀ i : Fin 96, r.channels[i].used = false) →
      ∃ t, exec (.withdrawLink a ref key) s = .next t ∧ LinkRemoved s t r ∧
        t.port a = (((s.port a).taken k ref 2).offered (.linkChanged key r.state .removed)).fill k ⟨ref, 2, .ok, .empty⟩ ∧
        ∀ q, q ≠ a → t.port q = (s.port q).offered (.linkChanged key r.state .removed))

/-- R25. LIST LINKS from 0 to 1023 answers OK with the lowest 8 occupied indexes from the start index on, in ascending order, each
with its key, the next index and the generation counter; from 1024 on it answers BAD_FIELD. Nothing else changes. -/
def Obligations.ListLinksWalksTheTable : Prop :=
  ∀ (s : State) (a : AgentId) (k : SlotNo) (ref start : BitVec 16), Heard s a k → linksRising s.links →
    (1024 ≤ start.toNat → exec (.listLinks a ref start) s = .next (replied a k ⟨ref, 4, .badField, .empty⟩ s)) ∧
    (start.toNat < 1024 → ∃ (l : List (Nat × LinkKey)) (next : Nat),
      exec (.listLinks a ref start) s = .next (replied a k ⟨ref, 4, .ok, .links l next s.generation⟩ s) ∧
      l.length ≤ 8 ∧ (l.Pairwise fun x y => x.1 < y.1) ∧
      (∀ e ∈ l, start.toNat ≤ e.1 ∧ ∃ r, s.linkAt e.1 = some r ∧ r.key = e.2) ∧
      (∀ e, l.length = 8 → l.getLast? = some e → next = e.1 + 1) ∧ (l.length < 8 → next = 1024) ∧
      (∀ r ∈ s.links, start.toNat ≤ r.index → r.index < next → (r.index, r.key) ∈ l))

/-- Section 1.1 (rule 4). SET LOCAL is answered BAD_FIELD without effect for id 0 or where a local id stands; otherwise the id
becomes the local node at index 0, created with count 0, or moved there with its count kept and its index freed; counter,
links and other nodes stay, and no notice is offered. -/
def Obligations.SetLocalPlacesTheLocalNode : Prop :=
  ∀ (s : State) (a : AgentId) (k : SlotNo) (ref : BitVec 16) (id : NodeId), Heard s a k → StoreInv s →
    ((s.localId ≠ 0 ∨ id = 0) →
      exec (.setLocal a ref id) s = .next (replied a k ⟨ref, 5, .badField, .empty⟩ s)) ∧
    (s.localId = 0 → id ≠ 0 → ∃ nodes,
      exec (.setLocal a ref id) s =
        .next { replied a k ⟨ref, 5, .ok, .empty⟩ s with localId := id, nodes := nodes } ∧
      (s.nodeById id = none → ⟨id, 0, .localNode, 0⟩ ∈ nodes) ∧
      (∀ n, s.nodeById id = some n →
        ⟨id, 0, .localNode, n.refs⟩ ∈ nodes ∧ 1 ≤ n.index ∧ ∀ m ∈ nodes, m.index ≠ n.index) ∧
      (∀ m, m.id ≠ id → (m ∈ nodes ↔ m ∈ s.nodes)) ∧ (nodes.map (·.id)).Nodup)

/-- Section 1.5 (rules 15 and 16). A lifetime that runs out makes the record STALE with a grace of 60 s, counted, told with STALE and
passed to the circuits. A grace that runs out removes a record not in use, with REMOVED; one in use stays STALE with its
removal deferred, without notice or count. The model's choice (log entry 3): where no such timer runs, nothing changes. -/
def Obligations.LinkAgeing : Prop :=
  ∀ (s : State) (i : Fin 1024), StoreInv s →
    (∀ r, s.linkAt i = some r → r.lifetime.isSome = true →
      exec (.lifetimeExpiry i) s = .next (circuitsFollow i r.key .stale
        (offerAll (.linkChanged r.key .stale .stale)
          ((bumpGeneration s).putLink { r with state := .stale, lifetime := none, grace := some 60000 })))) ∧
    ((∀ r, s.linkAt i = some r → r.lifetime = none) → exec (.lifetimeExpiry i) s = .next s) ∧
    (∀ r, s.linkAt i = some r → r.grace.isSome = true → (∃ j : Fin 96, r.channels[j].used = true) →
      exec (.graceExpiry i) s = .next (s.putLink { r with grace := none, removalDeferred := true })) ∧
    (∀ r, s.linkAt i = some r → r.grace.isSome = true → (∀ j : Fin 96, r.channels[j].used = false) →
      ∃ t, exec (.graceExpiry i) s = .next t ∧ LinkRemoved s t r ∧
        ∀ q, t.port q = (s.port q).offered (.linkChanged r.key r.state .removed)) ∧
    ((∀ r, s.linkAt i = some r → r.grace = none) → exec (.graceExpiry i) s = .next s)

/-! ## Path engine -/

/-- Section 3.1 (rule 48). SET CLASS is answered BAD_FIELD without effect for a class above 7 or an illegal threshold; otherwise the class takes
the threshold carried and the sender as its writer, OK is answered, and CLASS CHANGED, which passes every filter, is offered
for every port, after the OK (the model's choice of order, log entry 10). Nothing else changes. -/
def Obligations.SetClassWritesTheClass : Prop :=
  ∀ (s : State) (a : AgentId) (k : SlotNo) (ref : BitVec 16) (cls : Byte) (f : IfField), Heard s a k →
    ((7 < cls.toNat ∨ figLegal f = false) →
      exec (.setClass a ref cls f) s = .next (replied a k ⟨ref, 8, .badField, .empty⟩ s)) ∧
    (∀ c : Fin 8, cls.toNat = c → figLegal f = true →
      exec (.setClass a ref cls f) s = .next (offerAll (.classChanged c f a)
        (replied a k ⟨ref, 8, .ok, .empty⟩ { s with classes := s.classes.set c ⟨f, some a⟩ })) ∧
      ∀ x : Port, x.wants (.classChanged c f a) = true)

/-- R49. A PATH REQUEST is refused with the completion of the first of the eleven checks (`admissionChecks`) that fails, its answer
carrying the tag and no path; nothing else changes. -/
def Obligations.PathRequestRefusedByFirstCheck : Prop :=
  ∀ (s : State) (a : AgentId) (k : SlotNo) (ref : BitVec 16) (p : PathParams) (code : Completion),
    Heard s a k → PortInv s → (AgentCommand.pathRequest p).wellFormed = true →
    ((admissionChecks s a p).find? (·.1)).map (·.2) = some code →
    exec (.pathRequest a ref p) s = .next (replied a k ⟨ref, 6, code, .path
      { tag := p.tag, staleTopology := false, overflow := false, illegalSkipped := false, retries := 0
        working := none, protection := none, handles := [] }⟩ s)

/-- Sections 3.3 and 3.4 (rules 50, 53, 54, 55 and 56). A PATH REQUEST that passes the eleven checks is recorded with its fields
clamped and the class threshold and grid captured. While another request runs it joins its port's list; where the engine is
free its first search starts at once, on the first of its candidates, from the source alone, at the index of its node. Nothing
else changes. -/
def Obligations.PathRequestAdmitted : Prop :=
  ∀ (s : State) (a : AgentId) (k : SlotNo) (ref : BitVec 16) (p : PathParams) (cls : Fin 8) (width : Nat) (q : Request),
    Heard s a k → (AgentCommand.pathRequest p).wellFormed = true → (∀ c ∈ admissionChecks s a p, c.1 = false) → p.cls.toNat = cls →
    ((s.port a).grid = some .g50 ∧ width = 1 ∨ (s.port a).grid = some .g100 ∧ width = 2) →
    q = { ref := ref, slot := k, tag := p.tag, source := p.source, destination := p.destination, cls := cls
          threshold := s.classes[cls].threshold, width := width
          channel := if p.constraintKind = 1 then some p.channel.toNat else none
          direction := if p.direction = 1 then .highFirst else .lowFirst
          policy := if p.policy = 1 then .bestFit else .firstFit
          maxHops := if p.maxHops = 0 ∨ 16 < p.maxHops.toNat then 16 else p.maxHops.toNat
          delayBound := p.delayBound.toNat, allowDegraded := p.allowDegraded
          exclusions := p.exclusions.filterMap exclusionOf
          diversity := if p.diversity = 1 then .pair else .none
          hold := if p.hold = 1 then .hold else .none
          holdTime := if p.holdTime = 0 then 10 else min p.holdTime.toNat 120
          arithmetic := if p.arithmetic = 1 then .strict else .tolerant
          overflow := false, illegalSkipped := false, retries := 0, captured := none } →
    (∀ run, s.running = some run → exec (.pathRequest a ref p) s =
      .next ((taken a k ref 6 s).setQueued a (s.queuedOf a ++ [q]))) ∧
    (s.running = none → (∀ x, s.queuedOf x = []) → ∃ (c : Nat) (cs : List Nat) (i : Nat),
      c :: cs = (if p.direction = 1 then List.reverse else id)
        (if p.constraintKind = 1 then [p.channel.toNat] else List.range (96 / width)) ∧
      (∀ n, s.nodeById p.source = some n → i = n.index) ∧
      exec (.pathRequest a ref p) s = .next { taken a k ref 6 s with
        lastServed := a
        running := some
          { port := a, req := { q with captured := some s.generation }, stage := .working, candidate := c, remaining := cs
            frontier := [⟨p.source, i, 0, 0, 0, 0, none⟩], settled := [], protecting := none, workRemaining := []
            ranking := [], firstWorking := none } })

/-- Section 3.9 (rules 72 to 74). PATH CANCEL answers NO_ENTRY without effect where the sender's list holds no such tag. A
QUEUED request leaves the list, is answered CANCELLED with its flags clear, and the cancel OK; the running one ends likewise
with its holds and retry count, and the arbiter then acts. -/
def Obligations.PathCancelEndsTheRequest : Prop :=
  ∀ (s : State) (a : AgentId) (k : SlotNo) (ref tag : BitVec 16), Heard s a k → EngineInv s →
    ((∀ q ∈ s.pendingList a, q.tag ≠ tag) →
      exec (.pathCancel a ref tag) s = .next (replied a k ⟨ref, 7, .noEntry, .empty⟩ s)) ∧
    (∀ q ∈ s.queuedOf a, q.tag = tag →
      exec (.pathCancel a ref tag) s = .next (answer ⟨a, k, ref, 7⟩ .ok .empty
        (answer ⟨a, q.slot, q.ref, 6⟩ .cancelled (.path
            { tag := tag, staleTopology := false, overflow := false, illegalSkipped := false, retries := 0
              working := none, protection := none, handles := [] })
          ((taken a k ref 7 s).setQueued a ((s.queuedOf a).filter fun x => x.tag ≠ tag))))) ∧
    (∀ run, s.running = some run → run.port = a → run.req.tag = tag →
      exec (.pathCancel a ref tag) s = exec .requestArbiter (answer ⟨a, k, ref, 7⟩ .ok .empty
        (answer ⟨a, run.req.slot, run.req.ref, 6⟩ .cancelled (.path
            { tag := tag, staleTopology := false, overflow := run.req.overflow
              illegalSkipped := run.req.illegalSkipped, retries := run.req.retries
              working := none, protection := none, handles := [] })
          { taken a k ref 7 s with running := none })))

/-- Section 3.4 (rules 53 and 54). The arbiter does nothing while a request runs or none is QUEUED. Otherwise it takes the oldest
request of the first port in rotation after the last-served one that has any, and that port becomes the last served: with
both ends in the node table the request captures the counter and starts its first search, with the source alone in the
frontier; otherwise it is answered NO_ENTRY and the arbiter acts again. -/
def Obligations.ArbiterServesInRotation : Prop :=
  ∀ s : State,
    ((s.running ≠ none ∨ ∀ p, s.queuedOf p = []) → exec .requestArbiter s = .next s) ∧
    (∀ (p : AgentId) (before after : List AgentId) (q : Request) (rest : List Request), s.running = none →
      [s.lastServed + 1, s.lastServed + 2, s.lastServed + 3, s.lastServed] = before ++ p :: after →
      (∀ x ∈ before, s.queuedOf x = []) → s.queuedOf p = q :: rest →
      (s.nodeById q.source ≠ none → s.nodeById q.destination ≠ none →
        ∃ run, exec .requestArbiter s = .next { s.setQueued p rest with lastServed := p, running := some run } ∧
          run.port = p ∧ run.req = { q with captured := some s.generation } ∧ run.stage = .working ∧
          run.settled = [] ∧ run.protecting = none ∧ run.workRemaining = [] ∧ run.ranking = [] ∧ run.firstWorking = none ∧
          (∀ n, s.nodeById q.source = some n → run.frontier = [⟨q.source, n.index, 0, 0, 0, 0, none⟩]) ∧
          (1 ≤ q.width → q.width ≤ 2 → run.candidate :: run.remaining = searchOrder q)) ∧
      ((s.nodeById q.source = none ∨ s.nodeById q.destination = none) → q.captured = none →
        exec .requestArbiter s = exec .requestArbiter
          (answer ⟨p, q.slot, q.ref, 6⟩ .noEntry (.path
              { tag := q.tag, staleTopology := false, overflow := q.overflow, illegalSkipped := q.illegalSkipped
                retries := q.retries, working := none, protection := none, handles := [] })
            { s.setQueued p rest with lastServed := p })))

/-- R60. A candidate label is inserted where the frontier has none for its node and holds fewer than 256, discarded where it
holds 256, replaces the one there at a lower cost, or at equal cost with fewer hops, and is otherwise discarded. -/
def Obligations.FrontierKeepsTheCheapestLabel : Prop :=
  ∀ (frontier : List Label) (x : Label),
    ((∀ y ∈ frontier, y.node ≠ x.node) → frontier.length < 256 → offerLabel frontier x = frontier ++ [x]) ∧
    ((∀ y ∈ frontier, y.node ≠ x.node) → 256 ≤ frontier.length → offerLabel frontier x = frontier) ∧
    (∀ (l r : List Label) (y : Label), frontier = l ++ y :: r → y.node = x.node →
      (∀ z ∈ l ++ r, z.node ≠ x.node) →
      (x.cost < y.cost → offerLabel frontier x = l ++ x :: r) ∧
      (x.cost = y.cost → x.hops < y.hops → offerLabel frontier x = l ++ x :: r) ∧
      (x.cost = y.cost → y.hops ≤ x.hops → offerLabel frontier x = frontier) ∧
      (y.cost < x.cost → offerLabel frontier x = frontier))

/-- Sections 2.5, 3.5 and 3.6. A settling step takes a least label from the frontier, by cost, then hops, then the node index recorded
in the label, then node id. Where it is neither the destination nor the
256th settled, the label is settled, every label new in the frontier extends it over a usable link to an unsettled node, at
that node's index, and every such link whose extension passes leaves a label in the frontier that is at least as good, while
there is room. OVERFLOW and ILLEGAL_SKIPPED become set exactly where some such link overflows, or carries illegal noise; under
STRICT such a link ends the request with ARITH_ABORT instead. Nothing else changes. -/
def Obligations.SettlingStepRelaxesUsableLinks : Prop :=
  (∀ x y : Label, labelLess x y = true ↔ x.cost < y.cost ∨ x.cost = y.cost ∧ (x.hops < y.hops ∨ x.hops = y.hops ∧
    (x.index < y.index ∨ x.index = y.index ∧ x.node.toNat < y.node.toNat))) ∧
  (∀ (f : List Label) (l : Label), leastLabel f = some l → l ∈ f ∧ ∀ y ∈ f, labelLess y l = false) ∧
  (∀ f : List Label, leastLabel f = none ↔ f = []) ∧
  ∀ (s : State) (run : Running), s.running = some run → run.frontier ≠ [] → linksRising s.links →
    (run.frontier.map (·.node)).Nodup → run.settled.length + 1 < 256 →
    ∃ l ∈ run.frontier, (∀ y ∈ run.frontier, labelLess y l = false) ∧
      (l.node ≠ run.req.destination →
        (run.req.arithmetic = .strict → (∃ r, Relaxed s run l r ∧ (r.illegalNoise = true ∨ Overflows run.req l r)) →
          exec .settlingStep s = ended run .arithAbort none none [] s) ∧
        ((run.req.arithmetic = .tolerant ∨ ∀ r, Relaxed s run l r → r.illegalNoise = false ∧ ¬ Overflows run.req l r) →
          ∃ run', exec .settlingStep s = .next { s with running := some run' } ∧
            run' = { run with
              settled := l :: run.settled, frontier := run'.frontier
              req := { run.req with overflow := run'.req.overflow, illegalSkipped := run'.req.illegalSkipped } } ∧
            (run'.req.overflow = true ↔ run.req.overflow = true ∨ ∃ r, Relaxed s run l r ∧ Overflows run.req l r) ∧
            (run'.req.illegalSkipped = true ↔
              run.req.illegalSkipped = true ∨ ∃ r, Relaxed s run l r ∧ r.illegalNoise = true) ∧
            (∀ x ∈ run'.frontier, (x ∈ run.frontier ∧ x.node ≠ l.node) ∨
              ∃ r, Relaxed s run l r ∧ Extends run.req l r x ∧ ∀ n, s.nodeById x.node = some n → x.index = n.index) ∧
            (∀ r, Relaxed s run l r → ∀ x, Extends run.req l r x → run.frontier.length + s.links.length ≤ 256 →
              ∃ y ∈ run'.frontier, y.node = x.node ∧ (y.cost < x.cost ∨ y.cost = x.cost ∧ y.hops ≤ x.hops))))

/-- Sections 3.5 to 3.8. A search that ends on its candidate without a path (an empty frontier, or the 256th label settled) goes to
the next candidate; a protection search that has none left goes back to the working candidates or the ranking. A path found
answers the request, with its claim under HOLD: OK with the handles, HOLD_REFUSED, or one conflict more and the next candidate or
ranked path. PAIR searches a protection path first. BEST_FIT ranks the paths of all candidates by cost, then noise, and
takes them in order. A request left without candidates ends with CONFLICT, NO_DIVERSE or NO_PATH. The model's choice (log
entry 14): without a running request nothing changes. That ranked claims follow one another in one step: log entry 19. -/
def Obligations.SettlingStepReportsTheOutcome : Prop :=
  ∀ s : State, (s.running = none → exec .settlingStep s = .next s) ∧
    ∀ run, s.running = some run → run.req.width = 1 ∨ run.req.width = 2 → run.req.retries ≤ 255 →
      -- the search fails on its candidate, and another is left
      (SearchFails run → ∀ c cs, run.remaining = c :: cs → exec .settlingStep s = .next { s with
        running := some (searching s
          (if run.stage = .working then { run with protecting := none, workRemaining := [] } else run) c cs) }) ∧
      -- FIRST_FIT: the candidates of the search are used up
      (SearchFails run → run.remaining = [] → run.req.policy = .firstFit →
        (run.stage = .working → exec .settlingStep s = exhausted run s) ∧
        (run.stage = .protection → run.workRemaining = [] → exec .settlingStep s = exhausted run s) ∧
        (∀ c cs, run.stage = .protection → run.workRemaining = c :: cs → exec .settlingStep s = .next { s with
          running := some (searching s { run with stage := .working, protecting := none, workRemaining := [] } c cs) })) ∧
      -- FIRST_FIT with PAIR: a working path starts the protection search
      (∀ w c cs, SearchFinds run w → run.stage = .working → run.req.policy = .firstFit → run.req.diversity = .pair →
        searchOrder run.req = c :: cs → exec .settlingStep s = .next { s with
          running := some (searching s { run with
            stage := .protection, protecting := some w, workRemaining := run.remaining
            firstWorking := some (run.firstWorking.getD w) } c cs) }) ∧
      -- the paths are known: a working path of FIRST_FIT without PAIR, or a protection path
      (∀ w p first cands,
        (SearchFinds run w ∧ p = none ∧ run.stage = .working ∧ run.req.policy = .firstFit ∧ run.req.diversity = .none ∧
            first = some (run.firstWorking.getD w) ∧ cands = run.remaining ∨
          (∃ x, SearchFinds run x ∧ p = some x) ∧ run.stage = .protection ∧ run.protecting = some w ∧
            first = run.firstWorking ∧ cands = run.workRemaining) →
        (run.req.hold = .none → exec .settlingStep s = ended run .ok (some w) p [] s) ∧
        (run.req.hold = .hold →
          (∀ handles t, claim (claimOf run w p) s = .success handles t →
            exec .settlingStep s = ended run .ok (some w) p handles t) ∧
          (claim (claimOf run w p) s = .holdRefused → exec .settlingStep s = ended run .holdRefused (some w) p [] s) ∧
          (claim (claimOf run w p) s = .conflict → run.req.policy = .firstFit →
            (cands = [] → exec .settlingStep s = ended (conflicted run 1) .conflict none none [] s) ∧
            (∀ c cs, cands = c :: cs → exec .settlingStep s = .next { s with
              running := some (searching s { conflicted run 1 with
                stage := .working, protecting := none, workRemaining := [], firstWorking := first } c cs) })))) ∧
      -- BEST_FIT: a path joins the ranking, and another candidate is left
      (∀ w c cs, SearchFinds run w → run.stage = .working → run.req.policy = .bestFit → run.remaining = c :: cs →
        ∃ before after, run.ranking = before ++ after ∧ (∀ x ∈ before, ¬ Outranks w x) ∧
          (∀ x, after.head? = some x → Outranks w x) ∧
          exec .settlingStep s = .next { s with
            running := some (searching s { run with
              ranking := before ++ w :: after, protecting := none, workRemaining := [] } c cs) }) ∧
      -- BEST_FIT: the ranked paths are taken in order
      (∀ ranked first k, run.req.policy = .bestFit →
        (run.stage = .working ∧ run.remaining = [] ∧ k = 0 ∧ first = ranked.head? ∧
            (SearchFails run ∧ ranked = run.ranking ∨
              ∃ w before after, SearchFinds run w ∧ run.ranking = before ++ after ∧ (∀ x ∈ before, ¬ Outranks w x) ∧
                (∀ x, after.head? = some x → Outranks w x) ∧ ranked = before ++ w :: after) ∨
          run.stage = .protection ∧ ranked = run.ranking ∧ first = run.firstWorking ∧
            (SearchFails run ∧ run.remaining = [] ∧ k = 0 ∨
              ∃ w x, run.protecting = some w ∧ SearchFinds run x ∧ run.req.hold = .hold ∧
                claim (claimOf run w (some x)) s = .conflict ∧ k = 1)) →
        (ranked = [] → exec .settlingStep s = exhausted { conflicted run k with firstWorking := first } s) ∧
        (∀ w ws c cs, run.req.diversity = .pair → ranked = w :: ws → searchOrder run.req = c :: cs →
          exec .settlingStep s = .next { s with
            running := some (searching s { conflicted run k with
              stage := .protection, protecting := some w, workRemaining := run.remaining, ranking := ws
              firstWorking := first } c cs) }) ∧
        (∀ w ws, run.req.diversity = .none → run.req.hold = .none → ranked = w :: ws →
          exec .settlingStep s = ended (conflicted run k) .ok (some w) none [] s) ∧
        (run.req.diversity = .none → run.req.hold = .hold →
          (∀ before w after, ranked = before ++ w :: after →
            (∀ x ∈ before, claim (claimOf run x none) s = .conflict) →
            (∀ handles t, claim (claimOf run w none) s = .success handles t →
              exec .settlingStep s = ended (conflicted run (k + before.length)) .ok (some w) none handles t) ∧
            (claim (claimOf run w none) s = .holdRefused →
              exec .settlingStep s = ended (conflicted run (k + before.length)) .holdRefused (some w) none [] s)) ∧
          (ranked ≠ [] → (∀ x ∈ ranked, claim (claimOf run x none) s = .conflict) →
            exec .settlingStep s = ended (conflicted run (k + ranked.length)) .conflict none none [] s)))

/-! ## Circuits -/

/-- R81. COMMIT and RELEASE: an index above 63 is answered BAD_FIELD; a free index, or a sequence that differs, NO_ENTRY; an entry
of another agent NOT_OWNER; none changes anything. -/
def Obligations.HandleChecksComeInOrder : Prop :=
  ∀ (s : State) (a : AgentId) (k : SlotNo) (ref : BitVec 16) (index sequence kind : Byte) (i : Instr), Heard s a k →
    (i = .commit a ref index sequence ∧ kind = 9 ∨ i = .release a ref index sequence ∧ kind = 10) →
    (63 < index.toNat → exec i s = .next (replied a k ⟨ref, kind, .badField, .empty⟩ s)) ∧
    (∀ c : CircuitNo, index.toNat = c → (s.circuit c = none ∨ s.sequence c ≠ sequence) →
      exec i s = .next (replied a k ⟨ref, kind, .noEntry, .empty⟩ s)) ∧
    (∀ (c : CircuitNo) (e : Circuit), index.toNat = c → s.circuit c = some e → s.sequence c = sequence → e.owner ≠ a →
      exec i s = .next (replied a k ⟨ref, kind, .notOwner, .empty⟩ s))

/-- Section 4.2 (rules 84 to 86). A claim without room is HOLD_REFUSED before any link is read; with room, a link that fails
a requirement makes it CONFLICT; neither changes anything. A successful claim takes the lowest free indexes, raises their
sequence numbers, fills the entries HELD and writes HELD into the slot range of every link of each part; nothing else. -/
def Obligations.ClaimIsAllOrNothing : Prop :=
  ∀ (s : State) (q : Claim), linksRising s.links →
    (q.protection = none →
      ((∀ c, s.circuit c ≠ none) → claim q s = .holdRefused) ∧
      (∀ a, s.circuit a = none → (∀ x, x < a → s.circuit x ≠ none) →
        (¬ ClaimOk s q q.working → claim q s = .conflict) ∧
        (ClaimOk s q q.working → claim q s = .success [⟨a, s.sequence a + 1⟩]
          { s.setCircuit a (some
              { state := .held, owner := q.owner, tag := q.tag, firstSlot := q.working.firstSlot
                width := q.working.width, path := q.working.path, partner := none, role := q.working.role
                hold := some (q.holdTime * 1000), affected := false }) with
            sequences := s.sequences.set a (s.sequence a + 1)
            links := s.links.map (rangeWritten q.working.path q.working.firstSlot q.working.width (.held a)) }))) ∧
    (∀ part, q.protection = some part →
      ((∀ a b, s.circuit a = none → s.circuit b = none → a = b) → claim q s = .holdRefused) ∧
      (∀ a b, s.circuit a = none → s.circuit b = none → a < b → (∀ x, x < b → x ≠ a → s.circuit x ≠ none) →
        (¬ (ClaimOk s q q.working ∧ ClaimOk s q part) → claim q s = .conflict) ∧
        (ClaimOk s q q.working → ClaimOk s q part →
          claim q s = .success [⟨a, s.sequence a + 1⟩, ⟨b, s.sequence b + 1⟩]
          { (s.setCircuit a (some
              { state := .held, owner := q.owner, tag := q.tag, firstSlot := q.working.firstSlot
                width := q.working.width, path := q.working.path, partner := some b, role := q.working.role
                hold := some (q.holdTime * 1000), affected := false })).setCircuit b (some
              { state := .held, owner := q.owner, tag := q.tag, firstSlot := part.firstSlot
                width := part.width, path := part.path, partner := some a, role := part.role
                hold := some (q.holdTime * 1000), affected := false }) with
            sequences := (s.sequences.set a (s.sequence a + 1)).set b (s.sequence b + 1)
            links := (s.links.map (rangeWritten q.working.path q.working.firstSlot q.working.width (.held a))).map
              (rangeWritten part.path part.firstSlot part.width (.held b)) })))

/-- Section 4.3 (rule 88). A COMMIT that passes the handle checks makes a HELD entry LIT, without hold timer, writes LIT into
its slot range on every link of its path, and is answered OK; a LIT entry is answered OK. Nothing else changes: the partner,
the counter and the notices stay. -/
def Obligations.CommitLightsTheEntry : Prop :=
  ∀ (s : State) (a : AgentId) (k : SlotNo) (ref : BitVec 16) (index sequence : Byte) (c : CircuitNo) (e : Circuit),
    Heard s a k → linksRising s.links → index.toNat = c → s.circuit c = some e → s.sequence c = sequence → e.owner = a →
    (e.state = .lit → exec (.commit a ref index sequence) s = .next (replied a k ⟨ref, 9, .ok, .empty⟩ s)) ∧
    (e.state = .held → exec (.commit a ref index sequence) s = .next
      { (replied a k ⟨ref, 9, .ok, .empty⟩ s).setCircuit c (some { e with state := .lit, hold := none }) with
        links := s.links.map (rangeWritten e.path e.firstSlot e.width (.lit c)) })

/-- Section 4.4 (rules 90 and 91). A RELEASE that passes the handle checks is answered OK first; the entry is removed, HELD or
LIT: its slots FREE, its index free with the sequence kept, its partner left without partner, and each deferred link left
out of use removed, one count each, with its endpoints' reference counts lowered and a node that no link names gone. The ports
change by the answer and then by REMOVED for each of these links, in ascending link index, alone. -/
def Obligations.ReleaseRemovesTheEntry : Prop :=
  ∀ (s : State) (a : AgentId) (k : SlotNo) (ref : BitVec 16) (index sequence : Byte) (c : CircuitNo) (e : Circuit),
    Heard s a k → linksRising s.links → index.toNat = c → s.circuit c = some e → s.sequence c = sequence → e.owner = a →
    ∃ t, exec (.release a ref index sequence) s = .next t ∧ CircuitRemoved s t c e ∧
      ∀ gone, gone = s.links.filter (goesWith e) →
        (∀ p, t.port p =
          (removedNotices gone).foldl Port.offered ((replied a k ⟨ref, 10, .ok, .empty⟩ s).port p)) ∧
        (StoreInv s → ∀ id, t.nodeById id = nodeWithout s gone id)

/-- Section 4.4 (rules 91, 92 and 97). A hold timer that runs out offers HOLD EXPIRED, as the entry stood, to the owner's port
alone, and the entry is removed, with the deferred links left out of use and REMOVED for each, as in
`ReleaseRemovesTheEntry`. The model's choice (log entry 3): where no hold timer of a HELD entry runs, nothing changes. -/
def Obligations.HoldExpiryRemovesTheEntry : Prop :=
  ∀ (s : State) (c : CircuitNo), linksRising s.links →
    (∀ e told, s.circuit c = some e → e.state = .held → e.hold.isSome = true →
      told = offerTo e.owner (.holdExpired ⟨c, s.sequence c⟩ e.tag e.role e.firstSlot e.width
        (e.partner.map fun x => ⟨x, s.sequence x⟩)) s →
      ∃ t, exec (.holdExpiry c) s = .next t ∧ CircuitRemoved s t c e ∧ ∀ gone, gone = s.links.filter (goesWith e) →
        (∀ p, t.port p = (removedNotices gone).foldl Port.offered (told.port p)) ∧
        (StoreInv s → ∀ id, t.nodeById id = nodeWithout s gone id)) ∧
    ((∀ e, s.circuit c = some e → e.state = .lit ∨ e.hold = none) → exec (.holdExpiry c) s = .next s)

/-- Section 4.5 (rules 95 to 97). A change of a link's state to HOLDDOWN, DOWN or STALE flags every entry over the link; one to UP
or DEGRADED unflags those whose links are all UP or DEGRADED again. Each change of a flag offers its notice to the owner alone,
in ascending entry index; nothing else changes. -/
def Obligations.AffectedFlagFollowsTheLinks : Prop :=
  ∀ (s t : State) (i : Nat) (key : LinkKey) (st : LinkState), t = circuitsFollow i key st s →
    (∀ c, t.circuit c = (s.circuit c).map fun e =>
      if i ∈ e.path.map (·.index) then
        { e with affected := if st.usable then e.affected && !pathUsable s e.path else true }
      else e) ∧
    (∀ p, t.port p = ((List.finRange 64).filterMap (affectedNote s i key st p)).foldl Port.offered (s.port p)) ∧
    (∀ path, pathUsable s path = true ↔
      ∀ h ∈ path, ∃ r, s.linkAt h.index = some r ∧ (r.state = .up ∨ r.state = .degraded)) ∧
    t.sequences = s.sequences ∧ StoreKept s t ∧ EngineKept s t ∧ t.degrees = s.degrees ∧ LinesKept s t

/-! ## Queries -/

/-- Sections 1.9, 4.6 and 5.9 (rules 24, 41, 98 and 127). QUERY LINK, QUERY CIRCUIT and QUERY DEGREE answer with the record as it
stands, NO_ENTRY (with the index's sequence number for a circuit) where there is none, and BAD_FIELD for a number out of range;
QUERY DEGREE then clears the three arithmetic holds. Nothing else changes. -/
def Obligations.QueriesAnswerWithTheRecord : Prop :=
  ∀ (s : State) (a : AgentId) (k : SlotNo) (ref : BitVec 16), Heard s a k →
    (∀ key, s.linkByKey key = none →
      exec (.queryLink a ref key) s = .next (replied a k ⟨ref, 3, .noEntry, .empty⟩ s)) ∧
    (∀ key r, s.linkByKey key = some r →
      exec (.queryLink a ref key) s = .next (replied a k ⟨ref, 3, .ok, .link r s.generation⟩ s)) ∧
    (∀ index : Byte, 63 < index.toNat →
      exec (.queryCircuit a ref index) s = .next (replied a k ⟨ref, 11, .badField, .empty⟩ s)) ∧
    (∀ (index : Byte) (c : CircuitNo), index.toNat = c → s.circuit c = none →
      exec (.queryCircuit a ref index) s = .next (replied a k ⟨ref, 11, .noEntry, .sequence (s.sequence c)⟩ s)) ∧
    (∀ (index : Byte) (c : CircuitNo) (e : Circuit), index.toNat = c → s.circuit c = some e →
      exec (.queryCircuit a ref index) s = .next (replied a k ⟨ref, 11, .ok,
        .circuit ⟨c, s.sequence c⟩ e (e.partner.map fun x => ⟨x, s.sequence x⟩)⟩ s)) ∧
    (∀ b : Byte, 7 < b.toNat →
      exec (.queryDegree a ref b) s = .next (replied a k ⟨ref, 14, .badField, .empty⟩ s)) ∧
    (∀ (b : Byte) (d : DegreeNo), b.toNat = d →
      exec (.queryDegree a ref b) s = .next ((replied a k ⟨ref, 14, .ok, .degree d (s.degree d)⟩ s).setDegree d
        { s.degree d with overflowHold := false, underflowHold := false, illegalHold := false }))

/-! ## Degrees -/

/-- Section 1.6. A request of a degree controller for a key that is absent or not DISCOVERY's leaves the store as it is, but for an
install: with room for both links of the pair, and then alone, it replaces the data of a record that stands under a key,
whoever owns it, and creates one under an absent key, the outgoing link first, and reports an overlap where the mask names a
slot in use (R19, R20). Set-state and set-FOREIGN write the state, or the mask by R11, into a DISCOVERY record; remove takes it away where no slot is
in use, and otherwise sets it DOWN with its removal deferred. A pair gets its requests outgoing link first. -/
def Obligations.DegreeRequestsActOnDiscoveredLinks : Prop :=
  (∀ (s : State) (key : LinkKey), (∀ r, s.linkByKey key = some r → r.owner ≠ .discovery) →
    (∀ st, setLinkState key st s = s) ∧ (∀ m, setForeign key m s = s) ∧ removeDiscovered key s = s) ∧
  (∀ (s : State) (key : LinkKey) (r : LinkRecord), s.linkByKey key = some r → r.owner = .discovery →
    (∀ st, setLinkState key st s = changeLink r { r with state := st } s) ∧
    (∀ m : SlotMask, setForeign key m s = changeLink r { r with
      channels := Vector.ofFn fun j =>
        if r.channels[j].used then r.channels[j] else if m.getLsbD j then .foreign else .free } s) ∧
    ((∃ j : Fin 96, r.channels[j].used = true) →
      removeDiscovered key s = changeLink r { r with state := .down, removalDeferred := true } s) ∧
    (StoreInv s → (∀ j : Fin 96, r.channels[j].used = false) → LinkRemoved s (removeDiscovered key s) r ∧
      ∀ q, (removeDiscovered key s).port q = (s.port q).offered (.linkChanged key r.state .removed))) ∧
  (∀ (s : State) (p : InstalledPair) (x : PairData) (m : SlotMask),
    (installRoom [p.outgoing, p.ret] s = true ↔
      ([p.outgoing, p.ret].countP fun k => (s.linkByKey k).isNone) ≤ 1024 - s.links.length ∧
      (s.unknownNodes [p.outgoing.fromNode, p.outgoing.toNode, p.ret.fromNode, p.ret.toNode]).length ≤ s.freeNodes) ∧
    (installRoom [p.outgoing, p.ret] s = false → installPair p x m s = none) ∧
    (installRoom [p.outgoing, p.ret] s = true → ∃ overlap,
      installPair p x m s = some (overlap, installLink p.ret x m (installLink p.outgoing x m s)) ∧
      (overlap = true ↔ PairOverlaps s p m))) ∧
  (∀ (s : State) (key : LinkKey) (x : PairData) (m : SlotMask),
    (∀ r, s.linkByKey key = some r → installLink key x m s = changeLink r
      { r with
        owner := .discovery, state := x.state, cost := x.cost, delay := x.delay, noise := x.noise, srlg := x.srlg
        capability := x.capability
        channels := Vector.ofFn fun j =>
          if r.channels[j].used then r.channels[j] else if m.getLsbD j then .foreign else .free
        lifetime := none, grace := none, removalDeferred := false, illegalNoise := x.illegalNoise
        discoveredPair := true } s) ∧
    (∀ i t, StoreInv s → keyLegal key → s.linkByKey key = none → i < 1024 → (∀ r ∈ s.links, r.index ≠ i) →
      (∀ j, j < i → ∃ r ∈ s.links, r.index = j) → (s.unknownNodes [key.fromNode, key.toNode]).length ≤ s.freeNodes →
      t = installLink key x m s →
      t.linkAt i = some
        { key := key, index := i, owner := .discovery, state := x.state, cost := x.cost, delay := x.delay, noise := x.noise
          srlg := x.srlg, capability := x.capability
          channels := Vector.ofFn fun j => if m.getLsbD j then .foreign else .free
          lifetime := none, grace := none, removalDeferred := false, illegalNoise := x.illegalNoise
          discoveredPair := true } ∧
      (∀ j, j ≠ i → t.linkAt j = s.linkAt j) ∧ NodesRaised s t key ∧ t.generation = s.generation + 1 ∧
      (∀ q, t.port q = (s.port q).offered (.linkChanged key x.state .created)) ∧
      t.localId = s.localId ∧ t.degrees = s.degrees ∧ EngineKept s t ∧ CircuitsKept s t ∧ LinesKept s t)) ∧
  (∀ (s : State) (d : DegreeNo) (st : LinkState),
    ((s.degree d).installedPair = none → setPair d st s = s ∧ removePair d s = s) ∧
    (∀ p, (s.degree d).installedPair = some p →
      setPair d st s = setLinkState p.ret st (setLinkState p.outgoing st s) ∧
      removePair d s = (removeDiscovered p.ret (removeDiscovered p.outgoing s)).setDegree d
        { s.degree d with installedPair := none }))

/-- Section 5.7 (rules 122, 123, 125; 131 for the timer). SET DEGREE with a field out of range is answered BAD_FIELD without
effect. Otherwise the configured fields are written, the tries reloaded and OK answered (the answer first: the model's choice, log
entry 10); enabling a DISABLED degree makes it IDLE, timing a dark line, and with a loss-declare time of 0 then LOST, the two
events after the requests for the pair (the model's choice, log entry 27); disabling ends every timer, removes the pair and
makes it DISABLED; otherwise the state stays. -/
def Obligations.SetDegreeWritesTheConfiguration : Prop :=
  ∀ (s : State) (a : AgentId) (k : SlotNo) (ref : BitVec 16) (b : Byte) (p : DegreeParams), Heard s a k →
    p.srlg.length ≤ 255 →
    ((7 < b.toNat ∨ 2 < p.profile.toNat ∨ 4 < p.srlg.length ∨ 0 ∈ p.srlg ∨ ¬ p.srlg.Nodup ∨ 15 < p.tries.toNat ∨
        100 < p.lossDeclare.toNat ∨ 600 < p.holdDown.toNat) →
      exec (.setDegree a ref b p) s = .next (replied a k ⟨ref, 12, .badField, .empty⟩ s)) ∧
    (∀ (d : DegreeNo) (x y : Degree) (pr : Profile), b.toNat = d → s.degree d = x →
      (p.profile = 0 ∧ pr = .native ∨ p.profile = 1 ∧ pr = .linear24 ∨ p.profile = 2 ∧ pr = .perkm) →
      p.srlg.length ≤ 4 → 0 ∉ p.srlg → p.srlg.Nodup → p.tries.toNat ≤ 15 → p.lossDeclare.toNat ≤ 100 →
      p.holdDown.toNat ≤ 600 →
      y = { x with
        config := { enable := p.enable, profile := pr, cost := p.cost, capability := p.capability, srlg := p.srlg
                    tries := p.tries.toNat, lossDeclare := p.lossDeclare.toNat, holdDown := p.holdDown.toNat }
        triesRemaining := p.tries.toNat } →
      ((p.enable = true ∧ x.state ≠ .disabled ∨ p.enable = false ∧ x.state = .disabled) →
        exec (.setDegree a ref b p) s = .next ((replied a k ⟨ref, 12, .ok, .empty⟩ s).setDegree d y)) ∧
      (p.enable = true → x.state = .disabled → (x.carrier = .present ∨ x.lossTimer ≠ none ∨ p.lossDeclare ≠ 0) →
        exec (.setDegree a ref b p) s = .next (degreeMoves d .disabled
          { y with
            state := .idle
            lossTimer := if x.carrier = .absent ∧ x.lossTimer = none then some (p.lossDeclare.toNat * 100)
              else x.lossTimer } .config
          (replied a k ⟨ref, 12, .ok, .empty⟩ s))) ∧
      (p.enable = true → x.state = .disabled → x.carrier = .absent → x.lossTimer = none → p.lossDeclare = 0 →
        exec (.setDegree a ref b p) s = .next (degreeMoves d .idle
          { y with
            state := .lost, outstanding := none, probeTimer := none, intervalTimer := none, holdDownTimer := none
            pendingInstall := none, recovery := true } .carrierLoss
          (offerAll (.degreeEvent d .disabled .idle .config) (setPair d .down (replied a k ⟨ref, 12, .ok, .empty⟩ s))))) ∧
      (p.enable = false → x.state ≠ .disabled →
        exec (.setDegree a ref b p) s = .next (degreeMoves d x.state
          { y with
            state := .disabled, outstanding := none, probeTimer := none, intervalTimer := none, holdDownTimer := none
            lossTimer := none, settleTimer := none, pendingInstall := none, recovery := false, installedPair := none }
          .config (removePair d (replied a k ⟨ref, 12, .ok, .empty⟩ s)))))

/-- Sections 5.4 and 5.8 (rules 110, 114, 126; 131 for the timer). DISCOVER is answered BAD_FIELD for a degree above 7 and
NOT_READY while the local id is 0 or the degree DISABLED; otherwise OK, the tries are reloaded, any exchange, hold-down and
pending install end, and the degree enters PROBING with IDENT handed to its port, or EXHAUSTED with its pair DOWN where no
tries are configured. A dark line is timed; with a loss-declare time of 0 a degree in PROBING is LOST within the event, its
IDENT dropped, and both events follow the requests for its pair (the model's choice, log entry 27). The far-end fields and the
chain stay. -/
def Obligations.DiscoverStartsADiscovery : Prop :=
  ∀ (s : State) (a : AgentId) (k : SlotNo) (ref : BitVec 16) (b : Byte), Heard s a k →
    (7 < b.toNat → exec (.discover a ref b) s = .next (replied a k ⟨ref, 13, .badField, .empty⟩ s)) ∧
    (∀ (d : DegreeNo) (x y : Degree), b.toNat = d → s.degree d = x →
      y = { x with
        triesRemaining := x.config.tries, probeTimer := none, intervalTimer := none, holdDownTimer := none
        pendingInstall := none } →
      ((s.localId = 0 ∨ x.state = .disabled) →
        exec (.discover a ref b) s = .next (replied a k ⟨ref, 13, .notReady, .empty⟩ s)) ∧
      (s.localId ≠ 0 → x.state ≠ .disabled → x.config.tries ≠ 0 →
        (x.carrier = .present ∨ x.lossTimer ≠ none ∨ x.config.lossDeclare ≠ 0) →
        exec (.discover a ref b) s = .next (degreeMoves d x.state
          { y with
            state := .probing, outstanding := some .ident
            lossTimer := if x.carrier = .absent ∧ x.lossTimer = none then some (x.config.lossDeclare * 100)
              else x.lossTimer } .discover
          (replied a k ⟨ref, 13, .ok, .empty⟩ s))) ∧
      (s.localId ≠ 0 → x.state ≠ .disabled → x.config.tries ≠ 0 → x.carrier = .absent → x.lossTimer = none →
        x.config.lossDeclare = 0 → ∀ u, u = setPair d .down (replied a k ⟨ref, 13, .ok, .empty⟩ s) →
        exec (.discover a ref b) s = .next (degreeMoves d .probing
          { y with state := .lost, outstanding := none, recovery := true } .carrierLoss
          (if x.state = .probing then u else offerAll (.degreeEvent d x.state .probing .discover) u))) ∧
      (s.localId ≠ 0 → x.state ≠ .disabled → x.config.tries = 0 →
        exec (.discover a ref b) s = .next (degreeMoves d x.state
          { y with
            state := .exhausted, outstanding := none
            lossTimer := if x.carrier = .absent ∧ x.lossTimer = none ∧ x.config.lossDeclare ≠ 0 then
                some (x.config.lossDeclare * 100)
              else x.lossTimer } .discover
          (setPair d .down (replied a k ⟨ref, 13, .ok, .empty⟩ s)))))

/-- R144. LOAD COUNTER with a degree above 7 or an unlisted counter is answered BAD_FIELD without effect; otherwise the counter
takes the value, without notice, and OK is answered. An increase applies to the value that stands: 255 wraps to 0 and offers
COUNTER WRAP for every port. -/
def Obligations.LoadCounterPresetsTheCounter : Prop :=
  ∀ (s : State) (a : AgentId) (k : SlotNo) (ref : BitVec 16) (b c v : Byte), Heard s a k →
    ((7 < b.toNat ∨ 2 < c.toNat) →
      exec (.loadCounter a ref b c v) s = .next (replied a k ⟨ref, 15, .badField, .empty⟩ s)) ∧
    (∀ d : DegreeNo, b.toNat = d →
      (c = 0 → exec (.loadCounter a ref b c v) s = .next
        ((replied a k ⟨ref, 15, .ok, .empty⟩ s).setDegree d { s.degree d with probeTimeouts := v })) ∧
      (c = 1 → exec (.loadCounter a ref b c v) s = .next
        ((replied a k ⟨ref, 15, .ok, .empty⟩ s).setDegree d { s.degree d with erroredAnswers := v })) ∧
      (c = 2 → exec (.loadCounter a ref b c v) s = .next
        ((replied a k ⟨ref, 15, .ok, .empty⟩ s).setDegree d { s.degree d with carrierDrops := v }))) ∧
    (∀ (t : State) (d : DegreeNo) (n : CounterName),
      (counterOf (t.degree d) n ≠ 255 →
        countUp d n t = t.setDegree d (setCounter (t.degree d) n (counterOf (t.degree d) n + 1))) ∧
      (counterOf (t.degree d) n = 255 →
        countUp d n t = offerAll (.counterWrap d n) (t.setDegree d (setCounter (t.degree d) n 0))))

/-- Sections 5.4 and 5.6 (rules 111, 114, 120). An IDENT answer to the outstanding IDENT writes the far-end fields and site count
and empties the chain. Overflow, a far end that is none or the part itself, and a new far end while the old pair is in use
lead to FAULT, FAULT and MISMATCH, with the pair DOWN (a record in use under a key of the pair counts whoever owns it, the
model's choice, log entry 28); otherwise, with sites to come, batch 0 is asked for in COLLECTING, and without, the pair is
installed as `DiscoveryInstallsThePair` states. -/
def Obligations.IdentAnswerOpensTheCollection : Prop :=
  ∀ (s : State) (d : DegreeNo) (f : IdentContents) (x y z : Degree), s.loadState = .ready → s.degree d = x →
    x.state = .probing → x.outstanding = some .ident → f.siteCount.toNat ≤ 15 →
    y = { x with
      outstanding := none, probeTimer := none, farNode := f.node, farIface := f.iface, farCapability := f.capability
      farOccupied := f.occupied, siteCount := f.siteCount.toNat, chain := [] } →
    z = { y with intervalTimer := none, holdDownTimer := none, pendingInstall := none } →
    (f.overflow = true → exec (.identAnswer d f) s = .next
      (degreeMoves d .probing { z with state := .fault } .chainOverflow (setPair d .down s))) ∧
    (f.overflow = false → (f.node = 0 ∨ f.node = s.localId) → exec (.identAnswer d f) s = .next
      (degreeMoves d .probing { z with state := .fault } .farEnd (setPair d .down s))) ∧
    (f.overflow = false → f.node ≠ 0 → f.node ≠ s.localId →
      (∀ p, x.installedPair = some p → (p.outgoing.toNode ≠ f.node ∨ p.ret.iface ≠ f.iface) →
        PairBusy s p → exec (.identAnswer d f) s = .next
          (degreeMoves d .probing { z with state := .mismatch } .farEndChanged (setPair d .down s))) ∧
      ((∀ p, x.installedPair = some p → (p.outgoing.toNode = f.node ∧ p.ret.iface = f.iface) ∨ ¬ PairBusy s p) →
        f.siteCount ≠ 0 → exec (.identAnswer d f) s = .next
          (degreeMoves d .probing { y with state := .collecting, outstanding := some (.chain 0) } .collect s)))

/-- Section 5.4 (rules 112 to 114). A CHAIN answer to the outstanding batch appends its sites in order; with more to come the next
batch is asked for, but after batch 2 the degree is in FAULT; a complete chain of another length than announced is a FAULT
too, with the pair DOWN. -/
def Obligations.ChainAnswerAppendsItsSites : Prop :=
  ∀ (s : State) (d : DegreeNo) (batch : Byte) (sites : List SiteRecord) (more : Bool) (x y : Degree),
    s.loadState = .ready → s.degree d = x → x.state = .collecting → x.outstanding = some (.chain batch.toNat) →
    1 ≤ sites.length → sites.length ≤ 5 →
    y = { x with chain := x.chain ++ sites, outstanding := none, probeTimer := none } →
    (more = true → batch.toNat < 2 → exec (.chainAnswer d batch sites more) s = .next
      (s.setDegree d { y with outstanding := some (.chain (batch.toNat + 1)) })) ∧
    ((more = true ∧ 2 ≤ batch.toNat ∨ more = false ∧ x.chain.length + sites.length ≠ x.siteCount) →
      exec (.chainAnswer d batch sites more) s = .next (degreeMoves d .collecting
        { y with state := .fault, intervalTimer := none, holdDownTimer := none, pendingInstall := none } .chainCount
        (setPair d .down s)))

/-- Sections 5.4, 5.5 and 6.2. A chain that is complete, with its last batch or with an IDENT answer that announces no site, is
converted, and the arithmetic holds take the exceptions of the conversion. Into service, the pair of another far end is removed,
and both links are installed over what stands under their keys; the degree enters UP, or DEGRADED with an alarmed site, OVERLAP
says whether the far-end mask names a slot in use, the recovery ends and the keepalive exchange begins. A recovery under a
hold-down time enters HOLDDOWN with the data pending and its pair in HOLDDOWN, a pair of another far end installed first, the old
one removed unless in use (log entry 13). Where room lacks the degree enters FAULT without pair. The first clause states what
both links and the counter are where neither key stands in the store. -/
def Obligations.DiscoveryInstallsThePair : Prop :=
  ∀ (s : State) (d : DegreeNo) (i : Instr) (x w y : Degree) (c : Conversion) (data : PairData) (pair : InstalledPair),
    s.loadState = .ready → s.degree d = x →
    ((∃ batch sites, i = .chainAnswer d batch sites false ∧ x.state = .collecting ∧
        x.outstanding = some (.chain batch.toNat) ∧ 1 ≤ sites.length ∧ sites.length ≤ 5 ∧
        x.chain.length + sites.length = x.siteCount ∧
        w = { x with chain := x.chain ++ sites, outstanding := none, probeTimer := none }) ∨
      (∃ f, i = .identAnswer d f ∧ x.state = .probing ∧ x.outstanding = some .ident ∧ f.overflow = false ∧ f.node ≠ 0 ∧
        f.node ≠ s.localId ∧ f.siteCount = 0 ∧
        (∀ p, x.installedPair = some p → (p.outgoing.toNode = f.node ∧ p.ret.iface = f.iface) ∨ ¬ PairBusy s p) ∧
        w = { x with
          farNode := f.node, farIface := f.iface, farCapability := f.capability, farOccupied := f.occupied
          siteCount := 0, chain := [], outstanding := none, probeTimer := none })) →
    c = convertChain w.config.profile w.chain →
    y = { w with
      overflowHold := w.overflowHold || c.exceptions.overflow
      underflowHold := w.underflowHold || c.exceptions.underflow
      illegalHold := w.illegalHold || c.exceptions.illegal } →
    data = { state := if ∃ z ∈ w.chain, z.alarm = true then .degraded else .up, cost := w.config.cost
             delay := c.delay, noise := c.noise, illegalNoise := c.illegalNoise, srlg := w.config.srlg
             capability := w.farCapability &&& w.config.capability } →
    pair = ⟨⟨s.localId, w.farNode, BitVec.ofNat 8 d⟩, ⟨w.farNode, s.localId, w.farIface⟩⟩ →
    (StoreInv s → w.installedPair = none → (w.recovery = false ∨ w.config.holdDown = 0) →
      installRoom [pair.outgoing, pair.ret] s = true →
      s.linkByKey pair.outgoing = none → s.linkByKey pair.ret = none →
      ∃ t, exec i s = .next t ∧
        t.degree d = { y with
          state := if ∃ z ∈ w.chain, z.alarm = true then .degraded else .up
          intervalTimer := some 1000, missCount := 0, errorRun := 0, installedPair := some pair, recovery := false
          overlap := false } ∧
        (∀ key, (key = pair.outgoing ∨ key = pair.ret) → ∃ i, (∀ r ∈ s.links, r.index ≠ i) ∧
          t.linkByKey key = some
            { key := key, index := i, owner := .discovery, state := data.state, cost := data.cost, delay := data.delay
              noise := data.noise, srlg := data.srlg, capability := data.capability
              channels := Vector.ofFn fun j => if w.farOccupied.getLsbD j then .foreign else .free
              lifetime := none, grace := none, removalDeferred := false, illegalNoise := data.illegalNoise
              discoveredPair := true }) ∧
        (∀ key, key ≠ pair.outgoing → key ≠ pair.ret → t.linkByKey key = s.linkByKey key) ∧
        t.generation = s.generation + 2 ∧ t.localId = s.localId ∧ (∀ e, e ≠ d → t.degree e = s.degree e) ∧
        (∀ p, NoticesOnly s t p) ∧ EngineKept s t ∧ CircuitsKept s t ∧ LinesKept s t) ∧
    (∀ u, (w.recovery = false ∨ w.config.holdDown = 0) →
      (w.installedPair = none ∧ u = s ∨ ∃ p, w.installedPair = some p ∧
        u = if p.outgoing.toNode = w.farNode ∧ p.ret.iface = w.farIface then s else removePair d s) →
      (∀ overlap : Bool, installRoom [pair.outgoing, pair.ret] u = true →
        (overlap = true ↔ PairOverlaps u pair w.farOccupied) →
        exec i s = .next (degreeMoves d x.state
          { y with
            state := if ∃ z ∈ w.chain, z.alarm = true then .degraded else .up
            intervalTimer := some 1000, missCount := 0, errorRun := 0, installedPair := some pair, recovery := false
            overlap := overlap } .installed
          (installLink pair.ret data w.farOccupied (installLink pair.outgoing data w.farOccupied u)))) ∧
      (installRoom [pair.outgoing, pair.ret] u = false → exec i s = .next (degreeMoves d x.state
        { y with
          state := .fault, intervalTimer := none, holdDownTimer := none, pendingInstall := none, installedPair := none }
        .tableFull (setPair d .down u)))) ∧
    (w.recovery = true → w.config.holdDown ≠ 0 →
      (∀ p, w.installedPair = some p → p.outgoing.toNode = w.farNode → p.ret.iface = w.farIface →
        exec i s = .next (degreeMoves d x.state
          { y with
            state := .holddown, intervalTimer := some 1000, missCount := 0, errorRun := 0, pendingInstall := some data
            holdDownTimer := some (w.config.holdDown * 1000) } .installed
          (setPair d .holddown s))) ∧
      (∀ u, (w.installedPair = none ∧ u = s ∨ ∃ p, w.installedPair = some p ∧
          ¬ (p.outgoing.toNode = w.farNode ∧ p.ret.iface = w.farIface) ∧
          (PairBusy s p ∧ u = s ∨ ¬ PairBusy s p ∧ u = removePair d s)) →
        (∀ overlap : Bool, installRoom [pair.outgoing, pair.ret] u = true →
          (overlap = true ↔ PairOverlaps u pair w.farOccupied) →
          exec i s = .next (degreeMoves d x.state
            { y with
              state := .holddown, intervalTimer := some 1000, missCount := 0, errorRun := 0, pendingInstall := some data
              holdDownTimer := some (w.config.holdDown * 1000), installedPair := some pair, overlap := overlap } .installed
            (setLinkState pair.ret .holddown (setLinkState pair.outgoing .holddown
              (installLink pair.ret data w.farOccupied (installLink pair.outgoing data w.farOccupied u)))))) ∧
        (installRoom [pair.outgoing, pair.ret] u = false → exec i s = .next (degreeMoves d x.state
          { y with
            state := .fault, intervalTimer := none, holdDownTimer := none, pendingInstall := none, installedPair := none }
          .tableFull (setPair d .down u)))))

/-- Sections 6.2 and 6.3 (rules 136, 138, 139; 119 for OVERLAP). A KEEPALIVE answer ends the outstanding probe and the misses,
records the far-end mask and sends it to the pair, outgoing link first, OVERLAP saying whether it names a slot in use. In UP
five error indications in a row degrade degree and pair; in DEGRADED five clear ones restore them, unless a site is alarmed;
in HOLDDOWN the indication is ignored. An interval timer that does not run stays stopped (the model's choice, log entry 30). -/
def Obligations.KeepaliveAnswerKeepsTheService : Prop :=
  ∀ (s : State) (d : DegreeNo) (error : Bool) (m : SlotMask) (x : Degree), StoreInv s → s.loadState = .ready →
    s.degree d = x → x.outstanding = some .keepalive →
    ∃ (u : State) (overlap : Bool) (y : Degree),
      (x.installedPair = none → u = s ∧ overlap = x.overlap) ∧
      (∀ p, x.installedPair = some p → u = setForeign p.ret m (setForeign p.outgoing m s) ∧
        (overlap = true ↔ ∃ r, (s.linkByKey p.outgoing = some r ∨ s.linkByKey p.ret = some r) ∧ r.owner = .discovery ∧
          ∃ i : Fin 96, m.getLsbD i = true ∧ r.channels[i].used = true)) ∧
      y = { x with outstanding := none, probeTimer := none, missCount := 0, farOccupied := m, overlap := overlap } ∧
      (x.state = .holddown → exec (.keepaliveAnswer d error m) s = .next (u.setDegree d y)) ∧
      (x.state = .up →
        (error = false → exec (.keepaliveAnswer d error m) s = .next (u.setDegree d { y with errorRun := 0 })) ∧
        (error = true → x.errorRun < 4 →
          exec (.keepaliveAnswer d error m) s = .next (u.setDegree d { y with errorRun := x.errorRun + 1 })) ∧
        (error = true → 4 ≤ x.errorRun → exec (.keepaliveAnswer d error m) s = .next (degreeMoves d .up
          { y with errorRun := 0, state := .degraded } .remoteDegraded (setPair d .degraded u)))) ∧
      (x.state = .degraded →
        (error = true → exec (.keepaliveAnswer d error m) s = .next (u.setDegree d { y with errorRun := 0 })) ∧
        (error = false → x.errorRun < 4 →
          exec (.keepaliveAnswer d error m) s = .next (u.setDegree d { y with errorRun := x.errorRun + 1 })) ∧
        (error = false → 4 ≤ x.errorRun → (∃ z ∈ x.chain, z.alarm = true) →
          exec (.keepaliveAnswer d error m) s = .next (u.setDegree d { y with errorRun := 5 })) ∧
        (error = false → 4 ≤ x.errorRun → (∀ z ∈ x.chain, z.alarm = false) →
          exec (.keepaliveAnswer d error m) s = .next (degreeMoves d .degraded
            { y with errorRun := 0, state := .up } .remoteClear (setPair d .up u))))

/-- Sections 5.3, 5.10, 9.5 and 10.6 (rule 107). In READY, and outside DISABLED, a frame that fails the frame check, or an answer whose kind or
batch is not that of the outstanding probe, raises the errored-answer counter and does nothing else. An answer in DISABLED,
or outside READY, does nothing at all. A frame passes the check exactly when it is laid out by Tables 10-11 and 10-12 around what
R188 lets an answer carry; one that passes acts as its row (the model's choice, log entry 20). -/
def Obligations.StrayAnswersAreCounted : Prop :=
  (∀ x : ScAnswer, x.Legal → judgeAnswer (answerFrame x) = some x) ∧
  (∀ (frame : List Byte) (x : ScAnswer), judgeAnswer frame = some x → x.Legal ∧ frame = answerFrame x) ∧
  (∀ (s : State) (d : DegreeNo) (x : ScAnswer), x.Legal →
    exec (.erroredAnswer d (answerFrame x)) s = exec (answerRow d x) s) ∧
  ∀ (s : State) (d : DegreeNo) (i : Instr),
    (s.loadState = .ready → (s.degree d).state ≠ .disabled →
      ((∃ frame, i = .erroredAnswer d frame ∧ judgeAnswer frame = none) ∨
        (∃ f, i = .identAnswer d f ∧ (s.degree d).outstanding ≠ some .ident) ∨
        (∃ b sites more, i = .chainAnswer d b sites more ∧ (s.degree d).outstanding ≠ some (.chain b.toNat)) ∨
        (∃ error m, i = .keepaliveAnswer d error m ∧ (s.degree d).outstanding ≠ some .keepalive)) →
      exec i s = .next (if (s.degree d).erroredAnswers = 255 then
          offerAll (.counterWrap d .erroredAnswers) (s.setDegree d { s.degree d with erroredAnswers := 0 })
        else s.setDegree d { s.degree d with erroredAnswers := (s.degree d).erroredAnswers + 1 })) ∧
    ((s.loadState ≠ .ready ∨ (s.degree d).state = .disabled) →
      ((∃ frame, i = .erroredAnswer d frame) ∨ (∃ f, i = .identAnswer d f) ∨
        (∃ b sites more, i = .chainAnswer d b sites more) ∨ (∃ error m, i = .keepaliveAnswer d error m)) →
      exec i s = .next s)

/-- Sections 5.3 and 6.2 (rules 106, 108, 114, 135, 137). PROBE_SEND sends the probe held (log entry 6), its timer starts at 250 ms,
and with a KEEPALIVE the interval restarts. A discovery probe's timeout is counted and costs a try, the probe handed out again; at the
last try the degree is EXHAUSTED with its pair DOWN. A KEEPALIVE's timeout is counted as a miss; the third makes the degree
LOST with its pair DOWN. The interval's expiry hands a KEEPALIVE to the port. A probe is laid out by section 10.6, with the
local node id and the degree number (the check value: log entry 9). The model's choice (log entry 3): where no such
probe or timer stands, nothing changes. -/
def Obligations.ProbesAndTheirTimers : Prop :=
  ∀ (s : State) (d : DegreeNo) (x : Degree), s.degree d = x →
    (∀ p, x.outstanding = some p → x.probeTimer = none → exec (.probeSend d) s = .next
      { s.setDegree d { x with
          probeTimer := some 250, intervalTimer := if p = .keepalive then some 1000 else x.intervalTimer } with
        probesSent := s.probesSent.set d (s.probesSent[d] ++ [probeBytes s.localId d p]) }) ∧
    ((x.outstanding = none ∨ x.probeTimer ≠ none) → exec (.probeSend d) s = .next s) ∧
    (∀ p, x.outstanding = some p → p ≠ .keepalive → x.probeTimer ≠ none → 2 ≤ x.triesRemaining →
      exec (.probeTimeout d) s = .next ((countUp d .probeTimeouts s).setDegree d { x with
        probeTimeouts := x.probeTimeouts + 1, probeTimer := none, triesRemaining := x.triesRemaining - 1 })) ∧
    (∀ p, x.outstanding = some p → p ≠ .keepalive → x.probeTimer ≠ none → x.triesRemaining < 2 →
      exec (.probeTimeout d) s = .next (degreeMoves d x.state { x with
          probeTimeouts := x.probeTimeouts + 1, probeTimer := none, triesRemaining := 0, outstanding := none
          intervalTimer := none, holdDownTimer := none, pendingInstall := none, state := .exhausted } .tries
        (setPair d .down (countUp d .probeTimeouts s)))) ∧
    ((x.outstanding = none ∨ x.outstanding = some .keepalive ∨ x.probeTimer = none) →
      exec (.probeTimeout d) s = .next s) ∧
    (x.outstanding = some .keepalive → x.probeTimer ≠ none → x.missCount < 2 →
      exec (.keepaliveTimeout d) s = .next ((countUp d .probeTimeouts s).setDegree d { x with
        probeTimeouts := x.probeTimeouts + 1, probeTimer := none, outstanding := none, missCount := x.missCount + 1 })) ∧
    (x.outstanding = some .keepalive → x.probeTimer ≠ none → 2 ≤ x.missCount →
      exec (.keepaliveTimeout d) s = .next (degreeMoves d x.state { x with
          probeTimeouts := x.probeTimeouts + 1, probeTimer := none, outstanding := none, missCount := x.missCount + 1
          intervalTimer := none, holdDownTimer := none, pendingInstall := none, recovery := true, state := .lost }
        .keepaliveLoss (setPair d .down (countUp d .probeTimeouts s)))) ∧
    ((x.outstanding ≠ some .keepalive ∨ x.probeTimer = none) → exec (.keepaliveTimeout d) s = .next s) ∧
    (x.intervalTimer ≠ none → exec (.keepaliveIntervalExpiry d) s = .next (s.setDegree d { x with
      outstanding := some .keepalive, probeTimer := none, intervalTimer := none })) ∧
    (x.intervalTimer = none → exec (.keepaliveIntervalExpiry d) s = .next s) ∧
    (∀ (p : Probe) (kind batch : Byte) (front : List Byte),
      (p = .ident ∧ kind = 1 ∧ batch = 0 ∨ (∃ b, p = .chain b ∧ kind = 2 ∧ batch = BitVec.ofNat 8 b) ∨
        p = .keepalive ∧ kind = 3 ∧ batch = 0) →
      front = [kind, batch, 0, 8] ++ wordBytes 4 s.localId ++ [BitVec.ofNat 8 d, 0, 0, 0] →
      probeBytes s.localId d p = front ++ crcBytes front)

/-- Sections 6.1 and 6.8 (rules 130, 131, 134, 143, 146). A report of the recorded indication, and any report before READY, is
recorded as the port's level alone. A change is recorded and told with CARRIER; one to ABSENT raises the carrier drops. In
READY and outside DISABLED a change to PRESENT stops the loss timer and starts the settle at 1 s, and one to ABSENT stops the
settle and starts the loss timer, which at a loss-declare time of 0 runs out within the event; DISABLED, and during a warm
reset, no timer is touched. -/
def Obligations.CarrierChangeIsToldAndTimed : Prop :=
  ∀ (s : State) (d : DegreeNo) (x : Degree), s.degree d = x →
    (∀ c, (x.carrier = c ∨ s.loadState = .loading ∨ s.loadState = .resetFromLoading) →
      exec (.carrierChange d c) s = .next (s.setDegree d { x with lineCarrier := c })) ∧
    (x.carrier = .absent →
      (s.loadState = .ready → x.state ≠ .disabled → exec (.carrierChange d .present) s = .next
        (offerAll (.carrier d .present) (s.setDegree d { x with
          lineCarrier := .present, carrier := .present, lossTimer := none, settleTimer := some 1000 }))) ∧
      ((s.loadState = .ready ∧ x.state = .disabled ∨ s.loadState = .resetFromReady) →
        exec (.carrierChange d .present) s = .next
          (offerAll (.carrier d .present) (s.setDegree d { x with lineCarrier := .present, carrier := .present })))) ∧
    (x.carrier = .present → ∀ u, u = countUp d .carrierDrops (offerAll (.carrier d .absent) s) →
      (s.loadState = .ready → x.state ≠ .disabled → x.config.lossDeclare ≠ 0 →
        exec (.carrierChange d .absent) s = .next (u.setDegree d { x with
          lineCarrier := .absent, carrier := .absent, carrierDrops := x.carrierDrops + 1, settleTimer := none
          lossTimer := some (x.config.lossDeclare * 100) })) ∧
      (s.loadState = .ready → (x.state = .lost ∨ x.state = .exhausted ∨ x.state = .fault ∨ x.state = .mismatch) →
        x.config.lossDeclare = 0 →
        exec (.carrierChange d .absent) s = .next (u.setDegree d { x with
          lineCarrier := .absent, carrier := .absent, carrierDrops := x.carrierDrops + 1, settleTimer := none })) ∧
      (s.loadState = .ready → (x.state = .idle ∨ x.state = .probing ∨ x.state = .collecting ∨ x.state = .up ∨
          x.state = .degraded ∨ x.state = .holddown) → x.config.lossDeclare = 0 →
        exec (.carrierChange d .absent) s = .next (degreeMoves d x.state { x with
            lineCarrier := .absent, carrier := .absent, carrierDrops := x.carrierDrops + 1, settleTimer := none
            outstanding := none, probeTimer := none, intervalTimer := none, holdDownTimer := none
            pendingInstall := none, recovery := true, state := .lost } .carrierLoss (setPair d .down u))) ∧
      ((s.loadState = .ready ∧ x.state = .disabled ∨ s.loadState = .resetFromReady) →
        exec (.carrierChange d .absent) s = .next (u.setDegree d { x with
          lineCarrier := .absent, carrier := .absent, carrierDrops := x.carrierDrops + 1 })))

/-- Section 6.1 (rules 132 to 134). A loss-declare timer that runs out makes a degree in IDLE, PROBING, COLLECTING, UP, DEGRADED or
HOLDDOWN LOST, with its exchange and hold-down ended, its recovery mark set and its pair DOWN, and otherwise only stops. A
settle that runs out in LOST with a local id starts a discovery, EXHAUSTED at once without tries, and otherwise only stops. The
model's choice (log entry 3): where no such timer runs, nothing changes. -/
def Obligations.DebounceExpiriesMoveTheDegree : Prop :=
  ∀ (s : State) (d : DegreeNo) (x : Degree), s.degree d = x →
    (x.lossTimer = none → exec (.lossDeclareExpiry d) s = .next s) ∧
    (x.lossTimer ≠ none → (x.state = .idle ∨ x.state = .probing ∨ x.state = .collecting ∨ x.state = .up ∨
        x.state = .degraded ∨ x.state = .holddown) →
      exec (.lossDeclareExpiry d) s = .next (degreeMoves d x.state { x with
          lossTimer := none, outstanding := none, probeTimer := none, intervalTimer := none, holdDownTimer := none
          pendingInstall := none, recovery := true, state := .lost } .carrierLoss (setPair d .down s))) ∧
    (x.lossTimer ≠ none → (x.state = .lost ∨ x.state = .exhausted ∨ x.state = .fault ∨ x.state = .mismatch) →
      exec (.lossDeclareExpiry d) s = .next (s.setDegree d { x with lossTimer := none })) ∧
    (x.settleTimer = none → exec (.settleExpiry d) s = .next s) ∧
    (x.settleTimer ≠ none → (x.state ≠ .lost ∨ s.localId = 0) →
      exec (.settleExpiry d) s = .next (s.setDegree d { x with settleTimer := none })) ∧
    (x.settleTimer ≠ none → x.state = .lost → s.localId ≠ 0 → x.config.tries ≠ 0 → x.carrier = .present →
      exec (.settleExpiry d) s = .next (degreeMoves d .lost { x with
          settleTimer := none, triesRemaining := x.config.tries, outstanding := some .ident, probeTimer := none
          intervalTimer := none, holdDownTimer := none, pendingInstall := none, state := .probing } .carrierRestore s)) ∧
    (x.settleTimer ≠ none → x.state = .lost → s.localId ≠ 0 → x.config.tries = 0 → x.carrier = .present →
      exec (.settleExpiry d) s = .next (degreeMoves d .lost { x with
          settleTimer := none, triesRemaining := 0, outstanding := none, probeTimer := none, intervalTimer := none
          holdDownTimer := none, pendingInstall := none, state := .exhausted } .carrierRestore (setPair d .down s)))

/-- Section 6.4 (rules 118 and 140). A hold-down that runs out installs the pending data on the pair, with OVERLAP from the store,
ends the recovery and enters the pending state; where room lacks the degree enters FAULT without its pair. The model's choice
(log entry 3): where no hold-down timer runs, nothing changes. -/
def Obligations.HoldDownExpiryEntersService : Prop :=
  ∀ (s : State) (d : DegreeNo) (x : Degree), s.degree d = x →
    (x.holdDownTimer = none → exec (.holdDownExpiry d) s = .next s) ∧
    (∀ p data, x.holdDownTimer ≠ none → x.installedPair = some p → x.pendingInstall = some data →
      (installRoom [p.outgoing, p.ret] s = false → exec (.holdDownExpiry d) s = .next
        (degreeMoves d x.state { x with
          holdDownTimer := none, outstanding := none, probeTimer := none, intervalTimer := none, pendingInstall := none
          installedPair := none, state := .fault } .tableFull (setPair d .down s))) ∧
      (StoreInv s → ∀ r1 r2, s.linkByKey p.outgoing = some r1 → s.linkByKey p.ret = some r2 →
        ∃ t overlap, exec (.holdDownExpiry d) s = .next t ∧
          t.degree d = { x with
            holdDownTimer := none, pendingInstall := none, recovery := false, overlap := overlap
            state := if data.state = .degraded then .degraded else .up } ∧
          (overlap = true ↔ ∃ i : Fin 96, x.farOccupied.getLsbD i = true ∧
            (r1.channels[i].used = true ∨ r2.channels[i].used = true)) ∧
          (∀ key r, (key = p.outgoing ∧ r = r1 ∨ key = p.ret ∧ r = r2) → t.linkByKey key = some
            { r with
              owner := .discovery, state := data.state, cost := data.cost, delay := data.delay, noise := data.noise
              srlg := data.srlg, capability := data.capability
              channels := Vector.ofFn fun j =>
                if r.channels[j].used then r.channels[j] else if x.farOccupied.getLsbD j then .foreign else .free
              lifetime := none, grace := none, removalDeferred := false, illegalNoise := data.illegalNoise
              discoveredPair := true }) ∧
          (∀ key, key ≠ p.outgoing → key ≠ p.ret → t.linkByKey key = s.linkByKey key) ∧
          t.nodes = s.nodes ∧ t.localId = s.localId ∧ (∀ e, e ≠ d → t.degree e = s.degree e) ∧
          t.sequences = s.sequences ∧ (∀ q, NoticesOnly s t q) ∧ EngineKept s t ∧ LinesKept s t))

/-! ## Start-up and warm reset -/

/-- Sections 9.2, 9.3 and 10.7, with 5.10 and 6.1. The configuration is written once, in LOADING (elsewhere the row changes nothing,
the model's choice, log entry 14). Fewer than 244 bytes (log entry 23), or 244 whose identifier, length or check value is wrong,
give the defaults; otherwise the local id and the masks are the image's, each degree block whose fields are in range gives its
degree, with the enable of the mask, and any other block the defaults. With the warm-reset line asserted the part waits in
RESET; otherwise it is READY: each enabled port whose link is up places its opening INIT, every carrier is recorded, and each
enabled degree starts: IDLE without a local id, EXHAUSTED without tries, otherwise PROBING; a dark line is timed, and with a
loss-declare time of 0 a degree in IDLE or PROBING is LOST at once (log entry 27). The others are DISABLED. -/
def Obligations.ConfigurationStartsThePart : Prop :=
  (∀ image : List Byte, (image.length < 244 ∨ image.length = 244 ∧
      ¬ (image.take 4 = [0x53, 0x38, 0x31, 0x34] ∧ (image.drop 4).take 2 = [0, 244] ∧
        crcBytes (image.take 240) = image.drop 240)) →
    configurationOf image = { localId := 0, portEnable := 15, degrees := Vector.replicate 8 .default }) ∧
  (∀ (image : Image) (c : Configuration), c = configurationOf image.bytes →
    c.localId = image.localId ∧ (∀ p : AgentId, c.portEnable.getLsbD p = image.ports.getLsbD (7 - p)) ∧
    ∀ (d : DegreeNo) (b : ImageBlock) (ids : List (BitVec 16)), image.blocks[d] = b → ids = b.places.toList.take b.count.toNat →
      (∀ pr, (b.profile = 0 ∧ pr = .native ∨ b.profile = 1 ∧ pr = .linear24 ∨ b.profile = 2 ∧ pr = .perkm) →
        b.tries.toNat ≤ 15 → b.lossDeclare.toNat ≤ 100 → b.holdDown.toNat ≤ 600 → b.count.toNat ≤ 4 → 0 ∉ ids → ids.Nodup →
        c.degrees[d] =
          { enable := image.enables.getLsbD (7 - d), profile := pr, cost := b.cost, capability := b.capability, srlg := ids
            tries := b.tries.toNat, lossDeclare := b.lossDeclare.toNat, holdDown := b.holdDown.toNat }) ∧
      ((2 < b.profile.toNat ∨ 15 < b.tries.toNat ∨ 100 < b.lossDeclare.toNat ∨ 600 < b.holdDown.toNat ∨ 4 < b.count.toNat ∨
          0 ∈ ids ∨ ¬ ids.Nodup) → c.degrees[d] = .default)) ∧
  (∀ (s : State) (image : List Byte), s.loadState ≠ .loading → exec (.configurationApplied image) s = .next s) ∧
  (∀ (s : State) (image : List Byte) (c : Configuration), Sound s → s.loadState = .loading → c = configurationOf image →
    ∃ t, exec (.configurationApplied image) s = .next t ∧
      t.localId = c.localId ∧ t.nodes = (if c.localId = 0 then [] else [⟨c.localId, 0, .localNode, 0⟩]) ∧ t.links = [] ∧
      t.generation = s.generation ∧ t.portEnable = c.portEnable ∧ EngineKept s t ∧ CircuitsKept s t ∧
      t.warmAsserted = s.warmAsserted ∧ t.probesSent = s.probesSent ∧ t.pending = s.pending ∧
      (s.warmAsserted = true → t.loadState = .resetFromLoading ∧ t.ports = s.ports ∧ ∀ d : DegreeNo,
        t.degree d = { s.degree d with config := c.degrees[d], triesRemaining := c.degrees[d].tries }) ∧
      (s.warmAsserted = false → t.loadState = .ready ∧
        (∀ p, t.port p =
          if c.portEnable.getLsbD p = true ∧ (s.port p).linkUp = true then
            { s.port p with state := .init, linkFrames := [.init .opening (s.port p).errors] }
          else s.port p) ∧
        (∀ (d : DegreeNo) (x : Degree), x = { s.degree d with
            config := c.degrees[d], triesRemaining := c.degrees[d].tries, carrier := (s.degree d).lineCarrier } →
          (x.config.enable = false → t.degree d = x) ∧
          (x.config.enable = true → t.degree d = started c.localId x))))

/-- Sections 9.1, 9.5 and the reset tables (rules 26, 77, 101, 129, 146, 164, 181). An assertion in READY takes every port DOWN with
nothing held, ends every request, removes the HELD circuits and keeps the LIT, makes agents' links STALE and DISCOVERY's DOWN,
and every degree not DISABLED IDLE with its timers stopped (a DISABLED one keeps its record: log entry 26). A link made STALE
here loses its lifetime and starts a grace of 60 s; one that was STALE keeps its timer. The release opens the enabled ports and
starts the IDLE degrees, as `ConfigurationStartsThePart` does.
In every other load state an edge moves the line alone, but a release in RESET from LOADING starts the part. -/
def Obligations.WarmResetActsAtBothEdges : Prop :=
  (∀ s : State, s.loadState ≠ .ready → exec .warmResetAssertion s = .next { s with warmAsserted := true }) ∧
  (∀ s : State, (s.loadState = .loading ∨ s.loadState = .ready) →
    exec .warmResetRelease s = .next { s with warmAsserted := false }) ∧
  (∀ s : State, Sound s → s.loadState = .ready → ∃ t, exec .warmResetAssertion s = .next t ∧
    t.loadState = .resetFromReady ∧ t.warmAsserted = true ∧ t.localId = s.localId ∧ t.portEnable = s.portEnable ∧
    t.probesSent = s.probesSent ∧ t.pending = s.pending ∧ t.sequences = s.sequences ∧ t.classes = s.classes ∧
    t.running = none ∧ (∀ p, t.queuedOf p = []) ∧ t.lastServed = 3 ∧
    (∀ p, t.port p = match (s.port p).state with
      | .down => s.port p
      | .init => { s.port p with state := .down, linkFrames := [] }
      | .active => { Port.powerOn with
          linkUp := (s.port p).linkUp, errors := (s.port p).errors, sent := (s.port p).sent }) ∧
    (∀ c e, s.circuit c = some e → e.state = .held → t.circuit c = none) ∧
    (∀ c e, s.circuit c = some e → e.state = .lit → ∃ e', t.circuit c = some e' ∧ e'.state = .lit ∧
      e'.owner = e.owner ∧ e'.tag = e.tag ∧ e'.path = e.path ∧ e'.firstSlot = e.firstSlot ∧ e'.width = e.width) ∧
    (∀ r ∈ t.links, r.state = if r.owner = .discovery then .down else .stale) ∧
    (∀ r' ∈ t.links, ∃ r ∈ s.links, r.index = r'.index ∧ r.key = r'.key ∧ r.owner = r'.owner ∧
      (r.owner ≠ .discovery → r.state ≠ .stale → r'.lifetime = none ∧ r'.grace = some 60000) ∧
      (r.state = .stale → r'.lifetime = r.lifetime ∧ r'.grace = r.grace)) ∧
    (∀ r ∈ s.links, r.removalDeferred = false → ∃ r' ∈ t.links, r'.index = r.index ∧ r'.key = r.key) ∧
    (∀ r ∈ s.links, ∀ i : Fin 96, ∀ c, r.channels[i] = .lit c →
      ∃ r' ∈ t.links, r'.key = r.key ∧ r'.index = r.index ∧ r'.channels[i] = .lit c) ∧
    t.generation = s.generation + 1 + BitVec.ofNat 32 (s.links.length - t.links.length) ∧
    (∀ d, (s.degree d).state = .disabled → t.degree d = s.degree d) ∧
    (∀ d, (s.degree d).state ≠ .disabled → t.degree d = { s.degree d with
      state := .idle, outstanding := none, probeTimer := none, lossTimer := none, settleTimer := none
      intervalTimer := none, holdDownTimer := none, pendingInstall := none, missCount := 0, errorRun := 0 })) ∧
  (∀ s : State, Sound s → s.loadState = .resetFromReady → ∃ t, exec .warmResetRelease s = .next t ∧
    t.loadState = .ready ∧ t.warmAsserted = false ∧ t.localId = s.localId ∧ t.nodes = s.nodes ∧
    (∀ p, t.port p = if s.portEnable.getLsbD p = true ∧ (s.port p).linkUp = true then
        { s.port p with state := .init, linkFrames := [.init .opening (s.port p).errors] }
      else s.port p) ∧
    (∀ d, (s.degree d).state ≠ .idle → t.degree d = s.degree d) ∧
    (∀ d, (s.degree d).state = .idle → t.degree d = started s.localId (s.degree d))) ∧
  (∀ s : State, s.loadState = .resetFromLoading →
    exec .warmResetRelease s = .next (enterReady { s with warmAsserted := false }))

/-! ## Command bodies -/

/-- Sections 10.3 and 10.5. Every command whose operands a frame can carry is read back from its body whole, with its reference, and
(the model's reading, log entry 4) its row acts as the COMMAND frame of that body; every body that is read as a command gives operands a frame can carry, and is the
body of that command, unless it carries an exclusion of unlisted kind, whose bytes no field names. -/
def Obligations.CommandBodiesAreExact : Prop :=
  (∀ (ref : BitVec 16) (c : AgentCommand), c.wellFormed = true →
    judgeBody (commandBody ref c) = .wellFormed ref c ∧ (commandBody ref c).length ≤ 3200 ∧
    ∀ (a : AgentId) (s : State), exec (agentRow a ref c) s = exec (.command a (commandBody ref c)) s) ∧
  (∀ (body : List Byte) (ref : BitVec 16) (c : AgentCommand), judgeBody body = .wellFormed ref c →
    c.wellFormed = true ∧
    ((∀ p, c = .pathRequest p → ∀ kind, .unknown kind ∉ p.exclusions) → body = commandBody ref c))

/-! ## Invariants -/

/-- The state after power-on is sound (R27, R102, R103, R148, R165, R176). -/
def Obligations.ResetIsSound : Prop := Sound State.reset

/-- Chapter 7, and sections 3.3 and 8.1. Every step from a sound state, be it any command or a tick, keeps the ports sound (credit
sum 8, no command waiting beside a free slot, nothing held outside ACTIVE, the queues in their bounds, ports DOWN outside
READY) and the pending lists sound (no idle engine with requests queued, at most 4 with distinct tags, each with its own
reserved slot on an ACTIVE port, fields clamped). -/
def Obligations.StepKeepsPortsAndRequestsSound : Prop :=
  ∀ s t : State, Sound s → step s = .next t → PortInv t ∧ EngineInv t

/-- Chapter 1. Every step from a sound state keeps the node and link tables sound: indexes rising and in range, ids and keys
unique, reference counts equal to the links that name the node, the local node at index 0, and states, lifetimes and graces
as the owner kind allows. -/
def Obligations.StepKeepsTheStoreSound : Prop := ∀ s t : State, Sound s → step s = .next t → StoreInv t

/-- Section 4.1 (rule 82). Every step from a sound state keeps circuit table and channel maps in correspondence: each slot of an
entry's range shows that entry on every link of its path, and no slot is HELD or LIT without its entry. -/
def Obligations.StepKeepsSlotsAndCircuitsTogether : Prop := ∀ s t : State, Sound s → step s = .next t → OccupancyInv t

/-- Chapters 5 and 6. Every step from a sound state keeps each degree sound: the outstanding probe and the timers are such as its state
has, its fields are in range, it is DISABLED exactly while its enable is no once the part is READY, and IDLE or DISABLED
without timers during a warm reset. -/
def Obligations.StepKeepsTheDegreesSound : Prop := ∀ s t : State, Sound s → step s = .next t → DegreeInv t
end

