-- ==== Sys2Proof/Laws/Evaluate.lean ====
section
/-! SUPPORT. For each invariant a test that the kernel evaluates on a concrete state, and that it implies the invariant. -/

namespace Sys2Proof.Machine

/-- `Port.Sound` as a test. -/
def Port.soundTest (x : Port) : Bool :=
  decide (x.state = .active → x.queue.length + x.credits = 8) &&
  decide (x.state = .active → x.queue = [] ∨ x.freeSlot = none) &&
  decide (x.state = .active → x.grid ≠ none ∧ x.responseCredit ≠ .absent) &&
  decide (x.state ≠ .active → x.grid = none ∧ x.credits = 0 ∧ x.queue = [] ∧ x.responseCredit = .absent ∧
    x.notices = [] ∧ x.lost = 0 ∧ x.filter = [] ∧ x.subscription = 0 ∧ creditFrames x.linkFrames = 0) &&
  decide (x.state = .down → x.linkFrames = []) &&
  decide (creditFrames x.linkFrames ≤ x.busySlots) &&
  decide (x.linkFrames.length ≤ creditFrames x.linkFrames + 1) &&
  decide (x.notices.length ≤ 16 ∧ x.lost ≤ 255 ∧ x.errors ≤ 65535 ∧ x.filter.length ≤ 4) &&
  match x.responseCredit with
  | .limited n => decide (n ≤ 255)
  | .absent | .unlimited => true

theorem Port.sound_of_test {x : Port} (h : x.soundTest = true) : x.Sound := by
  simp only [Port.soundTest, Bool.and_eq_true, decide_eq_true_eq] at h
  obtain ⟨⟨⟨⟨⟨⟨⟨⟨h1, h2⟩, h3⟩, h4⟩, h5⟩, h6⟩, h7⟩, h8⟩, h9⟩ := h
  exact ⟨h1, h2, h3, h4, h5, h6, h7, h8, fun n hn => by simpa [hn] using h9⟩

/-- `PortInv` as a test. -/
def State.portTest (s : State) : Bool :=
  decide (∀ p, (s.port p).soundTest = true) &&
  decide (s.loadState ≠ .ready → ∀ p, (s.port p).state = .down) &&
  decide (∀ p, (s.port p).state ≠ .down → (s.port p).linkUp = true ∧ s.portEnable.getLsbD p = true)

theorem portInv_of_test {s : State} (h : s.portTest = true) : PortInv s := by
  simp only [State.portTest, Bool.and_eq_true, decide_eq_true_eq] at h
  exact ⟨fun p => Port.sound_of_test (h.1.1 p), h.1.2, h.2⟩

/-- `EngineInv` as a test. -/
def State.engineTest (s : State) : Bool :=
  decide (s.running = none → ∀ p, s.queuedOf p = []) &&
  decide (∀ p, (s.pendingList p).length ≤ 4 ∧ ((s.pendingList p).map (·.tag)).Nodup) &&
  decide (∀ p, ((s.pendingList p).map (·.slot)).Nodup ∧
    ∀ q ∈ s.pendingList p, (s.port p).state = .active ∧ (s.port p).slots[q.slot] = .reserved q.ref 6) &&
  decide (∀ p, ∀ q ∈ s.pendingList p, (q.width = 1 ∨ q.width = 2) ∧ 1 ≤ q.maxHops ∧ q.maxHops ≤ 16 ∧
    1 ≤ q.holdTime ∧ q.holdTime ≤ 120 ∧ q.retries ≤ 255) &&
  decide (∀ p, ∀ q ∈ s.queuedOf p,
    q.overflow = false ∧ q.illegalSkipped = false ∧ q.retries = 0 ∧ q.captured = none)

theorem engineInv_of_test {s : State} (h : s.engineTest = true) : EngineInv s := by
  simp only [State.engineTest, Bool.and_eq_true, decide_eq_true_eq] at h
  exact ⟨h.1.1.1.1, h.1.1.1.2, h.1.1.2, h.1.2, h.2⟩

/-- `keyLegal` as a test. -/
def keyTest (k : LinkKey) : Bool := decide (k.fromNode ≠ 0 ∧ k.toNode ≠ 0 ∧ k.fromNode ≠ k.toNode)

/-- `LinkRecord.Sound` as a test. -/
def LinkRecord.soundTest (r : LinkRecord) : Bool :=
  keyTest r.key && decide (r.index < 1024) && decide (r.owner ≠ .discovery → r.state ≠ .holddown) &&
  decide (r.owner = .discovery → r.state ≠ .stale) &&
  decide (r.lifetime.isSome = true ↔ r.owner ≠ .discovery ∧ r.state ≠ .stale) &&
  decide (r.grace.isSome = true → r.state = .stale) && decide (r.illegalNoise = !figLegal r.noise)

theorem LinkRecord.sound_of_test {r : LinkRecord} (h : r.soundTest = true) : r.Sound := by
  simp only [LinkRecord.soundTest, keyTest, Bool.and_eq_true, decide_eq_true_eq] at h
  obtain ⟨⟨⟨⟨⟨⟨h1, h2⟩, h3⟩, h4⟩, h5⟩, h6⟩, h7⟩ := h
  exact ⟨h1, h2, h3, h4, h5, h6, h7⟩

/-- `StoreInv` as a test. -/
def State.storeTest (s : State) : Bool :=
  decide (s.nodes.Pairwise fun a b => a.index < b.index) && decide (∀ n ∈ s.nodes, n.index ≤ 255 ∧ n.id ≠ 0) &&
  decide (s.nodes.map (·.id)).Nodup &&
  decide (∀ n ∈ s.nodes, (n.kind = .localNode ↔ n.index = 0) ∧ (n.index = 0 ↔ n.id = s.localId)) &&
  decide (s.localId ≠ 0 → ∃ n ∈ s.nodes, n.id = s.localId) &&
  decide (s.links.Pairwise fun a b => a.index < b.index) && decide (s.links.map (·.key)).Nodup &&
  decide (∀ r ∈ s.links, r.soundTest = true) &&
  decide (∀ n ∈ s.nodes, n.refs = s.links.countP fun r => keyNames r.key n.id) &&
  decide (∀ r ∈ s.links, (s.nodeById r.key.fromNode).isSome = true ∧ (s.nodeById r.key.toNode).isSome = true) &&
  decide (∀ n ∈ s.nodes, n.kind = .remote → 1 ≤ n.refs) &&
  decide (s.loadState = .loading → s.nodes = [] ∧ s.links = [] ∧ s.localId = 0 ∧
    (∀ p, (s.port p).state = .down) ∧ ∀ d, (s.degree d).holdDownTimer = none) &&
  decide (∀ d, (s.degree d).state = .probing → s.localId ≠ 0) &&
  decide (∀ d, (s.degree d).state = .collecting →
    s.localId ≠ 0 ∧ (s.degree d).farNode ≠ 0 ∧ (s.degree d).farNode ≠ s.localId) &&
  decide (∀ d, (s.degree d).installedPair.all (fun p => keyTest p.outgoing && keyTest p.ret &&
    decide (p.outgoing.fromNode = p.ret.toNode ∧ p.outgoing.toNode = p.ret.fromNode)) = true) &&
  decide (∀ d, (s.degree d).pendingInstall.all (fun x =>
    decide ((x.state = .up ∨ x.state = .degraded) ∧ x.illegalNoise = !figLegal x.noise)) = true)

theorem storeInv_of_test {s : State} (h : s.storeTest = true) : StoreInv s := by
  simp only [State.storeTest, Bool.and_eq_true, decide_eq_true_eq] at h
  obtain ⟨⟨⟨⟨⟨⟨⟨⟨⟨⟨⟨⟨⟨⟨⟨h1, h2⟩, h3⟩, h4⟩, h5⟩, h6⟩, h7⟩, h8⟩, h9⟩, h10⟩, h11⟩, h12⟩, h13⟩, h14⟩, h15⟩, h16⟩ := h
  refine ⟨⟨h1, h2, h3⟩, ⟨h4, h5⟩, ⟨h6, h7, fun r hr => LinkRecord.sound_of_test (h8 r hr)⟩, h9, h10, h11, h12, h13, h14,
    fun d p hp => ?_, fun d x hx => ?_⟩
  · have := h15 d
    simp only [hp, Option.all_some, keyTest, Bool.and_eq_true, decide_eq_true_eq] at this
    exact ⟨this.1.1, this.1.2, this.2⟩
  · have := h16 d
    simp only [hx, Option.all_some, decide_eq_true_eq] at this
    exact this

/-- The `diverse` clause of `OccupancyInv` as a test. -/
def Running.diverseTest (run : Running) : Bool :=
  run.protecting.all fun w => (run.frontier ++ run.settled).all fun l => l.pred.all fun p =>
    decide (p.link.key ∉ w.links.map (·.key))

/-- `OccupancyInv` as a test. -/
def State.occupancyTest (s : State) : Bool :=
  decide (s.links.Pairwise fun a b => a.index < b.index) &&
  decide (∀ c, (s.circuit c).all (fun e => decide (∀ h ∈ e.path, 1 ≤ e.width ∧ e.firstSlot + e.width ≤ 96 ∧
    ∃ r ∈ s.links, r.index = h.index ∧ r.key = h.key ∧
      ∀ i : Fin 96, e.firstSlot ≤ i.val ∧ i.val < e.firstSlot + e.width → r.channels[i] = e.slotState c)) = true) &&
  decide (∀ r ∈ s.links, ∀ i : Fin 96, r.channels[i].used = true → ∃ c, (s.circuit c).any (fun e =>
    decide (r.channels[i] = e.slotState c ∧ (e.firstSlot ≤ i.val ∧ i.val < e.firstSlot + e.width) ∧
      ∃ h ∈ e.path, h.index = r.index)) = true) &&
  decide (∀ p, ∀ q ∈ s.pendingList p, 1 ≤ q.width) &&
  s.running.all Running.diverseTest

theorem occupancyInv_of_test {s : State} (h : s.occupancyTest = true) : OccupancyInv s := by
  simp only [State.occupancyTest, Bool.and_eq_true, decide_eq_true_eq] at h
  obtain ⟨⟨⟨⟨h1, h2⟩, h3⟩, h4⟩, h5⟩ := h
  refine ⟨h1, fun c e he => ?_, fun r hr i hi => ?_, h4, fun run hrun w hw l hl p hp => ?_⟩
  · have := h2 c
    simp only [he, Option.all_some, decide_eq_true_eq] at this
    exact this
  · obtain ⟨c, hc⟩ := h3 r hr i hi
    obtain ⟨e, he, hd⟩ := Option.any_eq_true _ _ |>.mp hc
    simp only [decide_eq_true_eq] at hd
    exact ⟨c, e, he, hd⟩
  · rw [hrun] at h5
    simp only [Option.all_some, Running.diverseTest, hw, List.all_eq_true] at h5
    have := h5 l hl
    simpa only [hp, Option.all_some, decide_eq_true_eq] using this

/-- `Degree.probeFits` as a test. -/
def Degree.probeTest (x : Degree) : Bool :=
  match x.state with
  | .probing => decide (x.outstanding = some .ident)
  | .collecting => decide (∃ b : Fin 3, x.outstanding = some (.chain b) ∧ x.chain.length ≤ 5 * (b : Nat))
  | .up | .degraded | .holddown => decide (x.outstanding = none ∨ x.outstanding = some .keepalive)
  | .disabled | .idle | .lost | .exhausted | .fault | .mismatch => decide (x.outstanding = none)

/-- `Degree.Sound` as a test. -/
def Degree.soundTest (x : Degree) : Bool :=
  decide (x.config.tries ≤ 15 ∧ x.config.lossDeclare ≤ 100 ∧ x.config.holdDown ≤ 600 ∧ srlgBad x.config.srlg = false) &&
  decide (x.triesRemaining ≤ 15) && x.probeTest && decide (x.probeTimer.isSome = true → x.outstanding.isSome = true) &&
  decide (x.intervalTimer.isSome = true → inService x.state = true) &&
  decide (x.pendingInstall.isSome = true ↔ x.state = .holddown) &&
  decide (x.holdDownTimer.isSome = true → x.state = .holddown) &&
  decide (x.lossTimer.isSome = true → x.carrier = .absent) &&
  decide (x.settleTimer.isSome = true → x.carrier = .present) &&
  decide (x.state = .disabled → (x.probeTimer = none ∧ x.lossTimer = none ∧ x.settleTimer = none ∧
    x.intervalTimer = none ∧ x.holdDownTimer = none) ∧ x.installedPair = none ∧ x.recovery = false) &&
  decide (x.state = .lost → x.recovery = true) &&
  decide (x.missCount ≤ 3 ∧ (inService x.state = true → x.missCount ≤ 2)) &&
  decide (x.errorRun ≤ 5 ∧ (x.state = .up → x.errorRun ≤ 4) ∧ (x.state = .holddown → x.errorRun = 0)) &&
  decide (x.chain.length ≤ 15 ∧ x.siteCount ≤ 15)

theorem Degree.sound_of_test {x : Degree} (h : x.soundTest = true) : x.Sound := by
  simp only [Degree.soundTest, Bool.and_eq_true, decide_eq_true_eq] at h
  obtain ⟨⟨⟨⟨⟨⟨⟨⟨⟨⟨⟨⟨⟨h1, h2⟩, h3⟩, h4⟩, h5⟩, h6⟩, h7⟩, h8⟩, h9⟩, h10⟩, h11⟩, h12⟩, h13⟩, h14⟩ := h
  refine ⟨h1, h2, ?_, h4, h5, h6, h7, h8, h9, h10, h11, h12, h13, h14⟩
  unfold Degree.probeTest at h3
  unfold Degree.probeFits
  split <;> rename_i hs <;> simp only [hs, decide_eq_true_eq] at h3 <;> try exact h3
  obtain ⟨b, hb⟩ := h3
  exact ⟨b, by omega, hb⟩

/-- `DegreeInv` as a test. -/
def State.degreeTest (s : State) : Bool :=
  decide (∀ d, (s.degree d).soundTest = true) && decide (s.loadState ≠ .ready → ∀ p, (s.port p).state = .down) &&
  decide (s.loadState = .loading ∨ s.loadState = .resetFromLoading → ∀ d, (s.degree d).state = .disabled) &&
  decide (s.loadState = .resetFromReady → ∀ d, ((s.degree d).state = .idle ∨ (s.degree d).state = .disabled) ∧
    (s.degree d).probeTimer = none ∧ (s.degree d).lossTimer = none ∧ (s.degree d).settleTimer = none ∧
    (s.degree d).intervalTimer = none ∧ (s.degree d).holdDownTimer = none) &&
  decide (s.loadState = .ready ∨ s.loadState = .resetFromReady →
    ∀ d, ((s.degree d).config.enable = false ↔ (s.degree d).state = .disabled))

theorem degreeInv_of_test {s : State} (h : s.degreeTest = true) : DegreeInv s := by
  simp only [State.degreeTest, Bool.and_eq_true, decide_eq_true_eq] at h
  exact ⟨fun d => Degree.sound_of_test (h.1.1.1.1 d), h.1.1.1.2, h.1.1.2, h.1.2, h.2⟩

/-- The whole of `Sound` as a test. -/
theorem sound_of_tests {s : State} (h1 : s.portTest = true) (h2 : s.engineTest = true) (h3 : s.storeTest = true)
    (h4 : s.occupancyTest = true) (h5 : s.degreeTest = true) : Sound s :=
  ⟨portInv_of_test h1, engineInv_of_test h2, storeInv_of_test h3, occupancyInv_of_test h4, degreeInv_of_test h5⟩

end Sys2Proof.Machine
end

