-- ==== Sys2Proof/Laws/State.lean ====
section
/-! SUPPORT. One lemma for each field of the state under each of its updates, and the reads of a record that was written. -/

namespace Sys2Proof.Machine

variable (s : State)

/-! ### `State.setPort` -/

@[simp] theorem State.setPort_loadState (p : AgentId) (x : Port) : (s.setPort p x).loadState = s.loadState := rfl
@[simp] theorem State.setPort_warmAsserted (p : AgentId) (x : Port) : (s.setPort p x).warmAsserted = s.warmAsserted := rfl
@[simp] theorem State.setPort_localId (p : AgentId) (x : Port) : (s.setPort p x).localId = s.localId := rfl
@[simp] theorem State.setPort_nodes (p : AgentId) (x : Port) : (s.setPort p x).nodes = s.nodes := rfl
@[simp] theorem State.setPort_links (p : AgentId) (x : Port) : (s.setPort p x).links = s.links := rfl
@[simp] theorem State.setPort_generation (p : AgentId) (x : Port) : (s.setPort p x).generation = s.generation := rfl
@[simp] theorem State.setPort_classes (p : AgentId) (x : Port) : (s.setPort p x).classes = s.classes := rfl
@[simp] theorem State.setPort_lastServed (p : AgentId) (x : Port) : (s.setPort p x).lastServed = s.lastServed := rfl
@[simp] theorem State.setPort_queued (p : AgentId) (x : Port) : (s.setPort p x).queued = s.queued := rfl
@[simp] theorem State.setPort_running (p : AgentId) (x : Port) : (s.setPort p x).running = s.running := rfl
@[simp] theorem State.setPort_circuits (p : AgentId) (x : Port) : (s.setPort p x).circuits = s.circuits := rfl
@[simp] theorem State.setPort_sequences (p : AgentId) (x : Port) : (s.setPort p x).sequences = s.sequences := rfl
@[simp] theorem State.setPort_degrees (p : AgentId) (x : Port) : (s.setPort p x).degrees = s.degrees := rfl
@[simp] theorem State.setPort_portEnable (p : AgentId) (x : Port) : (s.setPort p x).portEnable = s.portEnable := rfl
@[simp] theorem State.setPort_probesSent (p : AgentId) (x : Port) : (s.setPort p x).probesSent = s.probesSent := rfl
@[simp] theorem State.setPort_pending (p : AgentId) (x : Port) : (s.setPort p x).pending = s.pending := rfl

/-! ### `State.setDegree` -/

@[simp] theorem State.setDegree_loadState (d : DegreeNo) (x : Degree) : (s.setDegree d x).loadState = s.loadState := rfl
@[simp] theorem State.setDegree_warmAsserted (d : DegreeNo) (x : Degree) : (s.setDegree d x).warmAsserted = s.warmAsserted := rfl
@[simp] theorem State.setDegree_localId (d : DegreeNo) (x : Degree) : (s.setDegree d x).localId = s.localId := rfl
@[simp] theorem State.setDegree_nodes (d : DegreeNo) (x : Degree) : (s.setDegree d x).nodes = s.nodes := rfl
@[simp] theorem State.setDegree_links (d : DegreeNo) (x : Degree) : (s.setDegree d x).links = s.links := rfl
@[simp] theorem State.setDegree_generation (d : DegreeNo) (x : Degree) : (s.setDegree d x).generation = s.generation := rfl
@[simp] theorem State.setDegree_classes (d : DegreeNo) (x : Degree) : (s.setDegree d x).classes = s.classes := rfl
@[simp] theorem State.setDegree_lastServed (d : DegreeNo) (x : Degree) : (s.setDegree d x).lastServed = s.lastServed := rfl
@[simp] theorem State.setDegree_queued (d : DegreeNo) (x : Degree) : (s.setDegree d x).queued = s.queued := rfl
@[simp] theorem State.setDegree_running (d : DegreeNo) (x : Degree) : (s.setDegree d x).running = s.running := rfl
@[simp] theorem State.setDegree_circuits (d : DegreeNo) (x : Degree) : (s.setDegree d x).circuits = s.circuits := rfl
@[simp] theorem State.setDegree_sequences (d : DegreeNo) (x : Degree) : (s.setDegree d x).sequences = s.sequences := rfl
@[simp] theorem State.setDegree_ports (d : DegreeNo) (x : Degree) : (s.setDegree d x).ports = s.ports := rfl
@[simp] theorem State.setDegree_portEnable (d : DegreeNo) (x : Degree) : (s.setDegree d x).portEnable = s.portEnable := rfl
@[simp] theorem State.setDegree_probesSent (d : DegreeNo) (x : Degree) : (s.setDegree d x).probesSent = s.probesSent := rfl
@[simp] theorem State.setDegree_pending (d : DegreeNo) (x : Degree) : (s.setDegree d x).pending = s.pending := rfl

/-! ### `State.setCircuit` -/

@[simp] theorem State.setCircuit_loadState (c : CircuitNo) (x : Option Circuit) : (s.setCircuit c x).loadState = s.loadState := rfl
@[simp] theorem State.setCircuit_warmAsserted (c : CircuitNo) (x : Option Circuit) : (s.setCircuit c x).warmAsserted = s.warmAsserted := rfl
@[simp] theorem State.setCircuit_localId (c : CircuitNo) (x : Option Circuit) : (s.setCircuit c x).localId = s.localId := rfl
@[simp] theorem State.setCircuit_nodes (c : CircuitNo) (x : Option Circuit) : (s.setCircuit c x).nodes = s.nodes := rfl
@[simp] theorem State.setCircuit_links (c : CircuitNo) (x : Option Circuit) : (s.setCircuit c x).links = s.links := rfl
@[simp] theorem State.setCircuit_generation (c : CircuitNo) (x : Option Circuit) : (s.setCircuit c x).generation = s.generation := rfl
@[simp] theorem State.setCircuit_classes (c : CircuitNo) (x : Option Circuit) : (s.setCircuit c x).classes = s.classes := rfl
@[simp] theorem State.setCircuit_lastServed (c : CircuitNo) (x : Option Circuit) : (s.setCircuit c x).lastServed = s.lastServed := rfl
@[simp] theorem State.setCircuit_queued (c : CircuitNo) (x : Option Circuit) : (s.setCircuit c x).queued = s.queued := rfl
@[simp] theorem State.setCircuit_running (c : CircuitNo) (x : Option Circuit) : (s.setCircuit c x).running = s.running := rfl
@[simp] theorem State.setCircuit_sequences (c : CircuitNo) (x : Option Circuit) : (s.setCircuit c x).sequences = s.sequences := rfl
@[simp] theorem State.setCircuit_degrees (c : CircuitNo) (x : Option Circuit) : (s.setCircuit c x).degrees = s.degrees := rfl
@[simp] theorem State.setCircuit_ports (c : CircuitNo) (x : Option Circuit) : (s.setCircuit c x).ports = s.ports := rfl
@[simp] theorem State.setCircuit_portEnable (c : CircuitNo) (x : Option Circuit) : (s.setCircuit c x).portEnable = s.portEnable := rfl
@[simp] theorem State.setCircuit_probesSent (c : CircuitNo) (x : Option Circuit) : (s.setCircuit c x).probesSent = s.probesSent := rfl
@[simp] theorem State.setCircuit_pending (c : CircuitNo) (x : Option Circuit) : (s.setCircuit c x).pending = s.pending := rfl

/-! ### `State.setQueued` -/

@[simp] theorem State.setQueued_loadState (p : AgentId) (l : List Request) : (s.setQueued p l).loadState = s.loadState := rfl
@[simp] theorem State.setQueued_warmAsserted (p : AgentId) (l : List Request) : (s.setQueued p l).warmAsserted = s.warmAsserted := rfl
@[simp] theorem State.setQueued_localId (p : AgentId) (l : List Request) : (s.setQueued p l).localId = s.localId := rfl
@[simp] theorem State.setQueued_nodes (p : AgentId) (l : List Request) : (s.setQueued p l).nodes = s.nodes := rfl
@[simp] theorem State.setQueued_links (p : AgentId) (l : List Request) : (s.setQueued p l).links = s.links := rfl
@[simp] theorem State.setQueued_generation (p : AgentId) (l : List Request) : (s.setQueued p l).generation = s.generation := rfl
@[simp] theorem State.setQueued_classes (p : AgentId) (l : List Request) : (s.setQueued p l).classes = s.classes := rfl
@[simp] theorem State.setQueued_lastServed (p : AgentId) (l : List Request) : (s.setQueued p l).lastServed = s.lastServed := rfl
@[simp] theorem State.setQueued_running (p : AgentId) (l : List Request) : (s.setQueued p l).running = s.running := rfl
@[simp] theorem State.setQueued_circuits (p : AgentId) (l : List Request) : (s.setQueued p l).circuits = s.circuits := rfl
@[simp] theorem State.setQueued_sequences (p : AgentId) (l : List Request) : (s.setQueued p l).sequences = s.sequences := rfl
@[simp] theorem State.setQueued_degrees (p : AgentId) (l : List Request) : (s.setQueued p l).degrees = s.degrees := rfl
@[simp] theorem State.setQueued_ports (p : AgentId) (l : List Request) : (s.setQueued p l).ports = s.ports := rfl
@[simp] theorem State.setQueued_portEnable (p : AgentId) (l : List Request) : (s.setQueued p l).portEnable = s.portEnable := rfl
@[simp] theorem State.setQueued_probesSent (p : AgentId) (l : List Request) : (s.setQueued p l).probesSent = s.probesSent := rfl
@[simp] theorem State.setQueued_pending (p : AgentId) (l : List Request) : (s.setQueued p l).pending = s.pending := rfl

/-! ### `State.putLink` -/

@[simp] theorem State.putLink_loadState (r : LinkRecord) : (s.putLink r).loadState = s.loadState := rfl
@[simp] theorem State.putLink_warmAsserted (r : LinkRecord) : (s.putLink r).warmAsserted = s.warmAsserted := rfl
@[simp] theorem State.putLink_localId (r : LinkRecord) : (s.putLink r).localId = s.localId := rfl
@[simp] theorem State.putLink_nodes (r : LinkRecord) : (s.putLink r).nodes = s.nodes := rfl
@[simp] theorem State.putLink_generation (r : LinkRecord) : (s.putLink r).generation = s.generation := rfl
@[simp] theorem State.putLink_classes (r : LinkRecord) : (s.putLink r).classes = s.classes := rfl
@[simp] theorem State.putLink_lastServed (r : LinkRecord) : (s.putLink r).lastServed = s.lastServed := rfl
@[simp] theorem State.putLink_queued (r : LinkRecord) : (s.putLink r).queued = s.queued := rfl
@[simp] theorem State.putLink_running (r : LinkRecord) : (s.putLink r).running = s.running := rfl
@[simp] theorem State.putLink_circuits (r : LinkRecord) : (s.putLink r).circuits = s.circuits := rfl
@[simp] theorem State.putLink_sequences (r : LinkRecord) : (s.putLink r).sequences = s.sequences := rfl
@[simp] theorem State.putLink_degrees (r : LinkRecord) : (s.putLink r).degrees = s.degrees := rfl
@[simp] theorem State.putLink_ports (r : LinkRecord) : (s.putLink r).ports = s.ports := rfl
@[simp] theorem State.putLink_portEnable (r : LinkRecord) : (s.putLink r).portEnable = s.portEnable := rfl
@[simp] theorem State.putLink_probesSent (r : LinkRecord) : (s.putLink r).probesSent = s.probesSent := rfl
@[simp] theorem State.putLink_pending (r : LinkRecord) : (s.putLink r).pending = s.pending := rfl

/-! ### `offerTo` -/

@[simp] theorem offerTo_loadState (p : AgentId) (n : Notice) : (offerTo p n s).loadState = s.loadState := rfl
@[simp] theorem offerTo_warmAsserted (p : AgentId) (n : Notice) : (offerTo p n s).warmAsserted = s.warmAsserted := rfl
@[simp] theorem offerTo_localId (p : AgentId) (n : Notice) : (offerTo p n s).localId = s.localId := rfl
@[simp] theorem offerTo_nodes (p : AgentId) (n : Notice) : (offerTo p n s).nodes = s.nodes := rfl
@[simp] theorem offerTo_links (p : AgentId) (n : Notice) : (offerTo p n s).links = s.links := rfl
@[simp] theorem offerTo_generation (p : AgentId) (n : Notice) : (offerTo p n s).generation = s.generation := rfl
@[simp] theorem offerTo_classes (p : AgentId) (n : Notice) : (offerTo p n s).classes = s.classes := rfl
@[simp] theorem offerTo_lastServed (p : AgentId) (n : Notice) : (offerTo p n s).lastServed = s.lastServed := rfl
@[simp] theorem offerTo_queued (p : AgentId) (n : Notice) : (offerTo p n s).queued = s.queued := rfl
@[simp] theorem offerTo_running (p : AgentId) (n : Notice) : (offerTo p n s).running = s.running := rfl
@[simp] theorem offerTo_circuits (p : AgentId) (n : Notice) : (offerTo p n s).circuits = s.circuits := rfl
@[simp] theorem offerTo_sequences (p : AgentId) (n : Notice) : (offerTo p n s).sequences = s.sequences := rfl
@[simp] theorem offerTo_degrees (p : AgentId) (n : Notice) : (offerTo p n s).degrees = s.degrees := rfl
@[simp] theorem offerTo_portEnable (p : AgentId) (n : Notice) : (offerTo p n s).portEnable = s.portEnable := rfl
@[simp] theorem offerTo_probesSent (p : AgentId) (n : Notice) : (offerTo p n s).probesSent = s.probesSent := rfl
@[simp] theorem offerTo_pending (p : AgentId) (n : Notice) : (offerTo p n s).pending = s.pending := rfl

/-! ### `offerAll` -/

@[simp] theorem offerAll_loadState (n : Notice) : (offerAll n s).loadState = s.loadState := rfl
@[simp] theorem offerAll_warmAsserted (n : Notice) : (offerAll n s).warmAsserted = s.warmAsserted := rfl
@[simp] theorem offerAll_localId (n : Notice) : (offerAll n s).localId = s.localId := rfl
@[simp] theorem offerAll_nodes (n : Notice) : (offerAll n s).nodes = s.nodes := rfl
@[simp] theorem offerAll_links (n : Notice) : (offerAll n s).links = s.links := rfl
@[simp] theorem offerAll_generation (n : Notice) : (offerAll n s).generation = s.generation := rfl
@[simp] theorem offerAll_classes (n : Notice) : (offerAll n s).classes = s.classes := rfl
@[simp] theorem offerAll_lastServed (n : Notice) : (offerAll n s).lastServed = s.lastServed := rfl
@[simp] theorem offerAll_queued (n : Notice) : (offerAll n s).queued = s.queued := rfl
@[simp] theorem offerAll_running (n : Notice) : (offerAll n s).running = s.running := rfl
@[simp] theorem offerAll_circuits (n : Notice) : (offerAll n s).circuits = s.circuits := rfl
@[simp] theorem offerAll_sequences (n : Notice) : (offerAll n s).sequences = s.sequences := rfl
@[simp] theorem offerAll_degrees (n : Notice) : (offerAll n s).degrees = s.degrees := rfl
@[simp] theorem offerAll_portEnable (n : Notice) : (offerAll n s).portEnable = s.portEnable := rfl
@[simp] theorem offerAll_probesSent (n : Notice) : (offerAll n s).probesSent = s.probesSent := rfl
@[simp] theorem offerAll_pending (n : Notice) : (offerAll n s).pending = s.pending := rfl

/-! ### `answer` -/

@[simp] theorem answer_loadState (t : Ticket) (c : Completion) (b : ResponseBody) : (answer t c b s).loadState = s.loadState := rfl
@[simp] theorem answer_warmAsserted (t : Ticket) (c : Completion) (b : ResponseBody) : (answer t c b s).warmAsserted = s.warmAsserted := rfl
@[simp] theorem answer_localId (t : Ticket) (c : Completion) (b : ResponseBody) : (answer t c b s).localId = s.localId := rfl
@[simp] theorem answer_nodes (t : Ticket) (c : Completion) (b : ResponseBody) : (answer t c b s).nodes = s.nodes := rfl
@[simp] theorem answer_links (t : Ticket) (c : Completion) (b : ResponseBody) : (answer t c b s).links = s.links := rfl
@[simp] theorem answer_generation (t : Ticket) (c : Completion) (b : ResponseBody) : (answer t c b s).generation = s.generation := rfl
@[simp] theorem answer_classes (t : Ticket) (c : Completion) (b : ResponseBody) : (answer t c b s).classes = s.classes := rfl
@[simp] theorem answer_lastServed (t : Ticket) (c : Completion) (b : ResponseBody) : (answer t c b s).lastServed = s.lastServed := rfl
@[simp] theorem answer_queued (t : Ticket) (c : Completion) (b : ResponseBody) : (answer t c b s).queued = s.queued := rfl
@[simp] theorem answer_running (t : Ticket) (c : Completion) (b : ResponseBody) : (answer t c b s).running = s.running := rfl
@[simp] theorem answer_circuits (t : Ticket) (c : Completion) (b : ResponseBody) : (answer t c b s).circuits = s.circuits := rfl
@[simp] theorem answer_sequences (t : Ticket) (c : Completion) (b : ResponseBody) : (answer t c b s).sequences = s.sequences := rfl
@[simp] theorem answer_degrees (t : Ticket) (c : Completion) (b : ResponseBody) : (answer t c b s).degrees = s.degrees := rfl
@[simp] theorem answer_portEnable (t : Ticket) (c : Completion) (b : ResponseBody) : (answer t c b s).portEnable = s.portEnable := rfl
@[simp] theorem answer_probesSent (t : Ticket) (c : Completion) (b : ResponseBody) : (answer t c b s).probesSent = s.probesSent := rfl
@[simp] theorem answer_pending (t : Ticket) (c : Completion) (b : ResponseBody) : (answer t c b s).pending = s.pending := rfl

/-! ### `bumpGeneration` -/

@[simp] theorem bumpGeneration_loadState : (bumpGeneration s).loadState = s.loadState := rfl
@[simp] theorem bumpGeneration_warmAsserted : (bumpGeneration s).warmAsserted = s.warmAsserted := rfl
@[simp] theorem bumpGeneration_localId : (bumpGeneration s).localId = s.localId := rfl
@[simp] theorem bumpGeneration_nodes : (bumpGeneration s).nodes = s.nodes := rfl
@[simp] theorem bumpGeneration_links : (bumpGeneration s).links = s.links := rfl
@[simp] theorem bumpGeneration_classes : (bumpGeneration s).classes = s.classes := rfl
@[simp] theorem bumpGeneration_lastServed : (bumpGeneration s).lastServed = s.lastServed := rfl
@[simp] theorem bumpGeneration_queued : (bumpGeneration s).queued = s.queued := rfl
@[simp] theorem bumpGeneration_running : (bumpGeneration s).running = s.running := rfl
@[simp] theorem bumpGeneration_circuits : (bumpGeneration s).circuits = s.circuits := rfl
@[simp] theorem bumpGeneration_sequences : (bumpGeneration s).sequences = s.sequences := rfl
@[simp] theorem bumpGeneration_degrees : (bumpGeneration s).degrees = s.degrees := rfl
@[simp] theorem bumpGeneration_ports : (bumpGeneration s).ports = s.ports := rfl
@[simp] theorem bumpGeneration_portEnable : (bumpGeneration s).portEnable = s.portEnable := rfl
@[simp] theorem bumpGeneration_probesSent : (bumpGeneration s).probesSent = s.probesSent := rfl
@[simp] theorem bumpGeneration_pending : (bumpGeneration s).pending = s.pending := rfl

/-! ### `modifyDegree` -/

@[simp] theorem modifyDegree_loadState (d : DegreeNo) (f : Degree → Degree) : (modifyDegree d f s).loadState = s.loadState := rfl
@[simp] theorem modifyDegree_warmAsserted (d : DegreeNo) (f : Degree → Degree) : (modifyDegree d f s).warmAsserted = s.warmAsserted := rfl
@[simp] theorem modifyDegree_localId (d : DegreeNo) (f : Degree → Degree) : (modifyDegree d f s).localId = s.localId := rfl
@[simp] theorem modifyDegree_nodes (d : DegreeNo) (f : Degree → Degree) : (modifyDegree d f s).nodes = s.nodes := rfl
@[simp] theorem modifyDegree_links (d : DegreeNo) (f : Degree → Degree) : (modifyDegree d f s).links = s.links := rfl
@[simp] theorem modifyDegree_generation (d : DegreeNo) (f : Degree → Degree) : (modifyDegree d f s).generation = s.generation := rfl
@[simp] theorem modifyDegree_classes (d : DegreeNo) (f : Degree → Degree) : (modifyDegree d f s).classes = s.classes := rfl
@[simp] theorem modifyDegree_lastServed (d : DegreeNo) (f : Degree → Degree) : (modifyDegree d f s).lastServed = s.lastServed := rfl
@[simp] theorem modifyDegree_queued (d : DegreeNo) (f : Degree → Degree) : (modifyDegree d f s).queued = s.queued := rfl
@[simp] theorem modifyDegree_running (d : DegreeNo) (f : Degree → Degree) : (modifyDegree d f s).running = s.running := rfl
@[simp] theorem modifyDegree_circuits (d : DegreeNo) (f : Degree → Degree) : (modifyDegree d f s).circuits = s.circuits := rfl
@[simp] theorem modifyDegree_sequences (d : DegreeNo) (f : Degree → Degree) : (modifyDegree d f s).sequences = s.sequences := rfl
@[simp] theorem modifyDegree_ports (d : DegreeNo) (f : Degree → Degree) : (modifyDegree d f s).ports = s.ports := rfl
@[simp] theorem modifyDegree_portEnable (d : DegreeNo) (f : Degree → Degree) : (modifyDegree d f s).portEnable = s.portEnable := rfl
@[simp] theorem modifyDegree_probesSent (d : DegreeNo) (f : Degree → Degree) : (modifyDegree d f s).probesSent = s.probesSent := rfl
@[simp] theorem modifyDegree_pending (d : DegreeNo) (f : Degree → Degree) : (modifyDegree d f s).pending = s.pending := rfl

/-! ### `modifyPort` -/

@[simp] theorem modifyPort_loadState (p : AgentId) (f : Port → Port) : (modifyPort p f s).loadState = s.loadState := rfl
@[simp] theorem modifyPort_warmAsserted (p : AgentId) (f : Port → Port) : (modifyPort p f s).warmAsserted = s.warmAsserted := rfl
@[simp] theorem modifyPort_localId (p : AgentId) (f : Port → Port) : (modifyPort p f s).localId = s.localId := rfl
@[simp] theorem modifyPort_nodes (p : AgentId) (f : Port → Port) : (modifyPort p f s).nodes = s.nodes := rfl
@[simp] theorem modifyPort_links (p : AgentId) (f : Port → Port) : (modifyPort p f s).links = s.links := rfl
@[simp] theorem modifyPort_generation (p : AgentId) (f : Port → Port) : (modifyPort p f s).generation = s.generation := rfl
@[simp] theorem modifyPort_classes (p : AgentId) (f : Port → Port) : (modifyPort p f s).classes = s.classes := rfl
@[simp] theorem modifyPort_lastServed (p : AgentId) (f : Port → Port) : (modifyPort p f s).lastServed = s.lastServed := rfl
@[simp] theorem modifyPort_queued (p : AgentId) (f : Port → Port) : (modifyPort p f s).queued = s.queued := rfl
@[simp] theorem modifyPort_running (p : AgentId) (f : Port → Port) : (modifyPort p f s).running = s.running := rfl
@[simp] theorem modifyPort_circuits (p : AgentId) (f : Port → Port) : (modifyPort p f s).circuits = s.circuits := rfl
@[simp] theorem modifyPort_sequences (p : AgentId) (f : Port → Port) : (modifyPort p f s).sequences = s.sequences := rfl
@[simp] theorem modifyPort_degrees (p : AgentId) (f : Port → Port) : (modifyPort p f s).degrees = s.degrees := rfl
@[simp] theorem modifyPort_portEnable (p : AgentId) (f : Port → Port) : (modifyPort p f s).portEnable = s.portEnable := rfl
@[simp] theorem modifyPort_probesSent (p : AgentId) (f : Port → Port) : (modifyPort p f s).probesSent = s.probesSent := rfl
@[simp] theorem modifyPort_pending (p : AgentId) (f : Port → Port) : (modifyPort p f s).pending = s.pending := rfl

/-! ### Records read after an update of another record -/

@[simp] theorem State.setPort_degree (p : AgentId) (x : Port) (e : DegreeNo) : (s.setPort p x).degree e = s.degree e := rfl
@[simp] theorem State.setPort_circuit (p : AgentId) (x : Port) (k : CircuitNo) : (s.setPort p x).circuit k = s.circuit k := rfl
@[simp] theorem State.setPort_sequence (p : AgentId) (x : Port) (k : CircuitNo) : (s.setPort p x).sequence k = s.sequence k := rfl
@[simp] theorem State.setPort_queuedOf (p : AgentId) (x : Port) (q : AgentId) : (s.setPort p x).queuedOf q = s.queuedOf q := rfl
@[simp] theorem State.setPort_linkByKey (p : AgentId) (x : Port) (k : LinkKey) : (s.setPort p x).linkByKey k = s.linkByKey k := rfl
@[simp] theorem State.setPort_linkAt (p : AgentId) (x : Port) (i : Nat) : (s.setPort p x).linkAt i = s.linkAt i := rfl
@[simp] theorem State.setPort_nodeById (p : AgentId) (x : Port) (id : NodeId) : (s.setPort p x).nodeById id = s.nodeById id := rfl
@[simp] theorem State.setDegree_port (d : DegreeNo) (x : Degree) (q : AgentId) : (s.setDegree d x).port q = s.port q := rfl
@[simp] theorem State.setDegree_circuit (d : DegreeNo) (x : Degree) (k : CircuitNo) : (s.setDegree d x).circuit k = s.circuit k := rfl
@[simp] theorem State.setDegree_sequence (d : DegreeNo) (x : Degree) (k : CircuitNo) : (s.setDegree d x).sequence k = s.sequence k := rfl
@[simp] theorem State.setDegree_queuedOf (d : DegreeNo) (x : Degree) (q : AgentId) : (s.setDegree d x).queuedOf q = s.queuedOf q := rfl
@[simp] theorem State.setDegree_linkByKey (d : DegreeNo) (x : Degree) (k : LinkKey) : (s.setDegree d x).linkByKey k = s.linkByKey k := rfl
@[simp] theorem State.setDegree_linkAt (d : DegreeNo) (x : Degree) (i : Nat) : (s.setDegree d x).linkAt i = s.linkAt i := rfl
@[simp] theorem State.setDegree_nodeById (d : DegreeNo) (x : Degree) (id : NodeId) : (s.setDegree d x).nodeById id = s.nodeById id := rfl
@[simp] theorem State.setCircuit_port (c : CircuitNo) (x : Option Circuit) (q : AgentId) : (s.setCircuit c x).port q = s.port q := rfl
@[simp] theorem State.setCircuit_degree (c : CircuitNo) (x : Option Circuit) (e : DegreeNo) : (s.setCircuit c x).degree e = s.degree e := rfl
@[simp] theorem State.setCircuit_sequence (c : CircuitNo) (x : Option Circuit) (k : CircuitNo) : (s.setCircuit c x).sequence k = s.sequence k := rfl
@[simp] theorem State.setCircuit_queuedOf (c : CircuitNo) (x : Option Circuit) (q : AgentId) : (s.setCircuit c x).queuedOf q = s.queuedOf q := rfl
@[simp] theorem State.setCircuit_linkByKey (c : CircuitNo) (x : Option Circuit) (k : LinkKey) : (s.setCircuit c x).linkByKey k = s.linkByKey k := rfl
@[simp] theorem State.setCircuit_linkAt (c : CircuitNo) (x : Option Circuit) (i : Nat) : (s.setCircuit c x).linkAt i = s.linkAt i := rfl
@[simp] theorem State.setCircuit_nodeById (c : CircuitNo) (x : Option Circuit) (id : NodeId) : (s.setCircuit c x).nodeById id = s.nodeById id := rfl
@[simp] theorem State.setQueued_port (p : AgentId) (l : List Request) (q : AgentId) : (s.setQueued p l).port q = s.port q := rfl
@[simp] theorem State.setQueued_degree (p : AgentId) (l : List Request) (e : DegreeNo) : (s.setQueued p l).degree e = s.degree e := rfl
@[simp] theorem State.setQueued_circuit (p : AgentId) (l : List Request) (k : CircuitNo) : (s.setQueued p l).circuit k = s.circuit k := rfl
@[simp] theorem State.setQueued_sequence (p : AgentId) (l : List Request) (k : CircuitNo) : (s.setQueued p l).sequence k = s.sequence k := rfl
@[simp] theorem State.setQueued_linkByKey (p : AgentId) (l : List Request) (k : LinkKey) : (s.setQueued p l).linkByKey k = s.linkByKey k := rfl
@[simp] theorem State.setQueued_linkAt (p : AgentId) (l : List Request) (i : Nat) : (s.setQueued p l).linkAt i = s.linkAt i := rfl
@[simp] theorem State.setQueued_nodeById (p : AgentId) (l : List Request) (id : NodeId) : (s.setQueued p l).nodeById id = s.nodeById id := rfl
@[simp] theorem State.putLink_port (r : LinkRecord) (q : AgentId) : (s.putLink r).port q = s.port q := rfl
@[simp] theorem State.putLink_degree (r : LinkRecord) (e : DegreeNo) : (s.putLink r).degree e = s.degree e := rfl
@[simp] theorem State.putLink_circuit (r : LinkRecord) (k : CircuitNo) : (s.putLink r).circuit k = s.circuit k := rfl
@[simp] theorem State.putLink_sequence (r : LinkRecord) (k : CircuitNo) : (s.putLink r).sequence k = s.sequence k := rfl
@[simp] theorem State.putLink_queuedOf (r : LinkRecord) (q : AgentId) : (s.putLink r).queuedOf q = s.queuedOf q := rfl
@[simp] theorem State.putLink_nodeById (r : LinkRecord) (id : NodeId) : (s.putLink r).nodeById id = s.nodeById id := rfl
@[simp] theorem offerTo_degree (p : AgentId) (n : Notice) (e : DegreeNo) : (offerTo p n s).degree e = s.degree e := rfl
@[simp] theorem offerTo_circuit (p : AgentId) (n : Notice) (k : CircuitNo) : (offerTo p n s).circuit k = s.circuit k := rfl
@[simp] theorem offerTo_sequence (p : AgentId) (n : Notice) (k : CircuitNo) : (offerTo p n s).sequence k = s.sequence k := rfl
@[simp] theorem offerTo_queuedOf (p : AgentId) (n : Notice) (q : AgentId) : (offerTo p n s).queuedOf q = s.queuedOf q := rfl
@[simp] theorem offerTo_linkByKey (p : AgentId) (n : Notice) (k : LinkKey) : (offerTo p n s).linkByKey k = s.linkByKey k := rfl
@[simp] theorem offerTo_linkAt (p : AgentId) (n : Notice) (i : Nat) : (offerTo p n s).linkAt i = s.linkAt i := rfl
@[simp] theorem offerTo_nodeById (p : AgentId) (n : Notice) (id : NodeId) : (offerTo p n s).nodeById id = s.nodeById id := rfl
@[simp] theorem offerAll_degree (n : Notice) (e : DegreeNo) : (offerAll n s).degree e = s.degree e := rfl
@[simp] theorem offerAll_circuit (n : Notice) (k : CircuitNo) : (offerAll n s).circuit k = s.circuit k := rfl
@[simp] theorem offerAll_sequence (n : Notice) (k : CircuitNo) : (offerAll n s).sequence k = s.sequence k := rfl
@[simp] theorem offerAll_queuedOf (n : Notice) (q : AgentId) : (offerAll n s).queuedOf q = s.queuedOf q := rfl
@[simp] theorem offerAll_linkByKey (n : Notice) (k : LinkKey) : (offerAll n s).linkByKey k = s.linkByKey k := rfl
@[simp] theorem offerAll_linkAt (n : Notice) (i : Nat) : (offerAll n s).linkAt i = s.linkAt i := rfl
@[simp] theorem offerAll_nodeById (n : Notice) (id : NodeId) : (offerAll n s).nodeById id = s.nodeById id := rfl
@[simp] theorem answer_degree (t : Ticket) (c : Completion) (b : ResponseBody) (e : DegreeNo) : (answer t c b s).degree e = s.degree e := rfl
@[simp] theorem answer_circuit (t : Ticket) (c : Completion) (b : ResponseBody) (k : CircuitNo) : (answer t c b s).circuit k = s.circuit k := rfl
@[simp] theorem answer_sequence (t : Ticket) (c : Completion) (b : ResponseBody) (k : CircuitNo) : (answer t c b s).sequence k = s.sequence k := rfl
@[simp] theorem answer_queuedOf (t : Ticket) (c : Completion) (b : ResponseBody) (q : AgentId) : (answer t c b s).queuedOf q = s.queuedOf q := rfl
@[simp] theorem answer_linkByKey (t : Ticket) (c : Completion) (b : ResponseBody) (k : LinkKey) : (answer t c b s).linkByKey k = s.linkByKey k := rfl
@[simp] theorem answer_linkAt (t : Ticket) (c : Completion) (b : ResponseBody) (i : Nat) : (answer t c b s).linkAt i = s.linkAt i := rfl
@[simp] theorem answer_nodeById (t : Ticket) (c : Completion) (b : ResponseBody) (id : NodeId) : (answer t c b s).nodeById id = s.nodeById id := rfl
@[simp] theorem bumpGeneration_port (q : AgentId) : (bumpGeneration s).port q = s.port q := rfl
@[simp] theorem bumpGeneration_degree (e : DegreeNo) : (bumpGeneration s).degree e = s.degree e := rfl
@[simp] theorem bumpGeneration_circuit (k : CircuitNo) : (bumpGeneration s).circuit k = s.circuit k := rfl
@[simp] theorem bumpGeneration_sequence (k : CircuitNo) : (bumpGeneration s).sequence k = s.sequence k := rfl
@[simp] theorem bumpGeneration_queuedOf (q : AgentId) : (bumpGeneration s).queuedOf q = s.queuedOf q := rfl
@[simp] theorem bumpGeneration_linkByKey (k : LinkKey) : (bumpGeneration s).linkByKey k = s.linkByKey k := rfl
@[simp] theorem bumpGeneration_linkAt (i : Nat) : (bumpGeneration s).linkAt i = s.linkAt i := rfl
@[simp] theorem bumpGeneration_nodeById (id : NodeId) : (bumpGeneration s).nodeById id = s.nodeById id := rfl
@[simp] theorem modifyDegree_port (d : DegreeNo) (f : Degree → Degree) (q : AgentId) : (modifyDegree d f s).port q = s.port q := rfl
@[simp] theorem modifyDegree_circuit (d : DegreeNo) (f : Degree → Degree) (k : CircuitNo) : (modifyDegree d f s).circuit k = s.circuit k := rfl
@[simp] theorem modifyDegree_sequence (d : DegreeNo) (f : Degree → Degree) (k : CircuitNo) : (modifyDegree d f s).sequence k = s.sequence k := rfl
@[simp] theorem modifyDegree_queuedOf (d : DegreeNo) (f : Degree → Degree) (q : AgentId) : (modifyDegree d f s).queuedOf q = s.queuedOf q := rfl
@[simp] theorem modifyDegree_linkByKey (d : DegreeNo) (f : Degree → Degree) (k : LinkKey) : (modifyDegree d f s).linkByKey k = s.linkByKey k := rfl
@[simp] theorem modifyDegree_linkAt (d : DegreeNo) (f : Degree → Degree) (i : Nat) : (modifyDegree d f s).linkAt i = s.linkAt i := rfl
@[simp] theorem modifyDegree_nodeById (d : DegreeNo) (f : Degree → Degree) (id : NodeId) : (modifyDegree d f s).nodeById id = s.nodeById id := rfl
@[simp] theorem modifyPort_degree (p : AgentId) (f : Port → Port) (e : DegreeNo) : (modifyPort p f s).degree e = s.degree e := rfl
@[simp] theorem modifyPort_circuit (p : AgentId) (f : Port → Port) (k : CircuitNo) : (modifyPort p f s).circuit k = s.circuit k := rfl
@[simp] theorem modifyPort_sequence (p : AgentId) (f : Port → Port) (k : CircuitNo) : (modifyPort p f s).sequence k = s.sequence k := rfl
@[simp] theorem modifyPort_queuedOf (p : AgentId) (f : Port → Port) (q : AgentId) : (modifyPort p f s).queuedOf q = s.queuedOf q := rfl
@[simp] theorem modifyPort_linkByKey (p : AgentId) (f : Port → Port) (k : LinkKey) : (modifyPort p f s).linkByKey k = s.linkByKey k := rfl
@[simp] theorem modifyPort_linkAt (p : AgentId) (f : Port → Port) (i : Nat) : (modifyPort p f s).linkAt i = s.linkAt i := rfl
@[simp] theorem modifyPort_nodeById (p : AgentId) (f : Port → Port) (id : NodeId) : (modifyPort p f s).nodeById id = s.nodeById id := rfl

/-! ### A record read after it was written -/

@[simp] theorem State.setPort_port_same (p : AgentId) (x : Port) : (s.setPort p x).port p = x := by
  simp [State.setPort, State.port]

theorem State.setPort_port_other {p q : AgentId} (h : q ≠ p) (x : Port) : (s.setPort p x).port q = s.port q := by
  have h' : (p : Nat) ≠ q := fun e => h (Fin.ext e.symm)
  simp [State.setPort, State.port, h']

theorem State.setPort_port (p q : AgentId) (x : Port) : (s.setPort p x).port q = if q = p then x else s.port q := by
  by_cases h : q = p
  · subst h; simp
  · simp [State.setPort_port_other s h, h]

@[simp] theorem State.setPort_setPort (p : AgentId) (x y : Port) : (s.setPort p x).setPort p y = s.setPort p y := by
  simp [State.setPort]

@[simp] theorem State.setDegree_degree_same (d : DegreeNo) (x : Degree) : (s.setDegree d x).degree d = x := by
  simp [State.setDegree, State.degree]

theorem State.setDegree_degree (d e : DegreeNo) (x : Degree) :
    (s.setDegree d x).degree e = if e = d then x else s.degree e := by
  by_cases h : e = d
  · subst h; simp
  · have h' : (d : Nat) ≠ e := fun e' => h (Fin.ext e'.symm)
    simp [State.setDegree, State.degree, h, h']

@[simp] theorem State.setDegree_setDegree (d : DegreeNo) (x y : Degree) :
    (s.setDegree d x).setDegree d y = s.setDegree d y := by
  simp [State.setDegree]

@[simp] theorem State.setCircuit_circuit_same (c : CircuitNo) (x : Option Circuit) : (s.setCircuit c x).circuit c = x := by
  simp [State.setCircuit, State.circuit]

theorem State.setCircuit_circuit (c k : CircuitNo) (x : Option Circuit) :
    (s.setCircuit c x).circuit k = if k = c then x else s.circuit k := by
  by_cases h : k = c
  · subst h; simp
  · have h' : (c : Nat) ≠ k := fun e' => h (Fin.ext e'.symm)
    simp [State.setCircuit, State.circuit, h, h']

@[simp] theorem State.setQueued_queuedOf_same (p : AgentId) (l : List Request) : (s.setQueued p l).queuedOf p = l := by
  simp [State.setQueued, State.queuedOf]

theorem State.setQueued_queuedOf (p q : AgentId) (l : List Request) :
    (s.setQueued p l).queuedOf q = if q = p then l else s.queuedOf q := by
  by_cases h : q = p
  · subst h; simp
  · have h' : (p : Nat) ≠ q := fun e' => h (Fin.ext e'.symm)
    simp [State.setQueued, State.queuedOf, h, h']

@[simp] theorem offerTo_port_same (p : AgentId) (n : Notice) : (offerTo p n s).port p = (s.port p).offered n := by
  simp [offerTo]

theorem offerTo_port_other {p q : AgentId} (h : q ≠ p) (n : Notice) : (offerTo p n s).port q = s.port q := by
  simp [offerTo, State.setPort_port_other s h]

@[simp] theorem offerAll_port (n : Notice) (q : AgentId) : (offerAll n s).port q = (s.port q).offered n := by
  simp [offerAll, State.port]

@[simp] theorem answer_port_same (t : Ticket) (c : Completion) (b : ResponseBody) :
    (answer t c b s).port t.port = (s.port t.port).fill t.slot ⟨t.ref, t.kind, c, b⟩ := by
  simp [answer]

theorem answer_port_other (t : Ticket) (c : Completion) (b : ResponseBody) {q : AgentId} (h : q ≠ t.port) :
    (answer t c b s).port q = s.port q := by
  simp [answer, State.setPort_port_other s h]

@[simp] theorem modifyDegree_degree_same (d : DegreeNo) (f : Degree → Degree) :
    (modifyDegree d f s).degree d = f (s.degree d) := by
  simp [modifyDegree]

theorem modifyDegree_degree (d e : DegreeNo) (f : Degree → Degree) :
    (modifyDegree d f s).degree e = if e = d then f (s.degree d) else s.degree e := by
  simp [modifyDegree, State.setDegree_degree]

@[simp] theorem modifyPort_port_same (p : AgentId) (f : Port → Port) :
    (modifyPort p f s).port p = f (s.port p) := by
  simp [modifyPort]

theorem modifyPort_port (p q : AgentId) (f : Port → Port) :
    (modifyPort p f s).port q = if q = p then f (s.port p) else s.port q := by
  simp [modifyPort, State.setPort_port]

end Sys2Proof.Machine
end

