-- ==== Sys2Proof/Laws/Take.lean ====
section
/-! SUPPORT. The take of a command that is heard at once, and what each operation on a port leaves alone. -/

namespace Sys2Proof.Machine

variable {s : State} {a : AgentId} {k : SlotNo}

/-- Filling the slot of a taken command is the reply of the port. -/
theorem taken_fill (x : Port) (ref : BitVec 16) (kind : Byte) (r : Response) :
    (x.taken k ref kind).fill k r = x.replied k r := by
  simp [Port.taken, Port.fill, Port.replied]

/-- The answer to a command that did nothing else. -/
theorem answer_taken (ref : BitVec 16) (kind : Byte) (code : Completion) (b : ResponseBody) :
    answer ⟨a, k, ref, kind⟩ code b (taken a k ref kind s) = replied a k ⟨ref, kind, code, b⟩ s := by
  simp [answer, taken, replied, taken_fill]

/-- The owner of an answer placed in the slot of the taken command, on a state that kept the port. -/
theorem takeMany_of_empty (p : AgentId) (h : (s.port p).queue = []) : ∀ n, takeMany p n s = s := by
  intro n
  induction n with
  | zero => rfl
  | succ n ih =>
    have h1 : takeOne p s = s := by
      unfold takeOne
      cases hs : (s.port p).state <;> simp [h]
    rw [takeMany, h1, ih]

/-- No take on an empty queue (R154). -/
theorem takeAll_of_empty (p : AgentId) (h : (s.port p).queue = []) : takeAll p s = s := takeMany_of_empty p h _

/-- No take while every slot is in use (R154, R157). -/
theorem takeOne_of_full (p : AgentId) (h : (s.port p).freeSlot = none) : takeOne p s = s := by
  unfold takeOne
  cases hs : (s.port p).state <;> cases hq : (s.port p).queue <;> simp [h]

theorem takeMany_of_full (p : AgentId) (h : (s.port p).freeSlot = none) : ∀ n, takeMany p n s = s := by
  intro n
  induction n with
  | zero => rfl
  | succ n ih => rw [takeMany, takeOne_of_full p h, ih]

/-- A COMMAND frame that is heard at once reaches its owner, or is answered BAD_FIELD, within its arrival, with its credit
given back (R153, R154, R155). -/
theorem receive_heard (h : Heard s a k) (c : QueuedCommand) :
    receiveFrame a (.command c) s = dispatch a c k (taken a k c.label.1 c.label.2 s) := by
  obtain ⟨ha, hq, hc, hk⟩ := h
  have h1 : receiveFrame a (.command c) s = receiveCommand a c s := by
    unfold receiveFrame
    rw [ha]
  have h3 : ∀ x : Port, x.state = .active → x.queue = [c] → x.freeSlot = some k →
      takeAll a (s.setPort a x) = dispatch a c k (s.setPort a (x.takeHead c [] k)) := by
    intro x hx hxq hxk
    unfold takeAll
    rw [State.setPort_port_same, hxq]
    show takeOne a (s.setPort a x) = _
    unfold takeOne
    rw [State.setPort_port_same]
    simp only [hx, hxq, hxk, State.setPort_setPort]
  have hc' : (s.port a).credits - 1 + 1 = (s.port a).credits := by omega
  rw [h1]
  unfold receiveCommand modifyPort
  rw [if_neg hc]
  refine (h3 _ ?_ ?_ ?_).trans ?_
  · exact ha
  · simp only [hq, List.nil_append]
  · exact hk
  · simp only [Port.takeHead, taken, Port.taken, hc', ← hq]

/-- Agent commands that can be laid out are dispatched as they are (R155). -/
theorem send_heard (h : Heard s a k) (ref : BitVec 16) (c : AgentCommand) (hw : c.wellFormed = true) :
    sendCommand a ref c s = .next (passToOwner ⟨a, k, ref, commandCode c⟩ c (taken a k ref (commandCode c) s)) := by
  simp [sendCommand, receive_heard h, judgeTyped, hw, dispatch, QueuedCommand.label]

end Sys2Proof.Machine
end

