-- ==== Sys2Proof/Laws/Ops.lean ====
section
/-! SUPPORT. One lemma for each shared operation over maps, tables and notices, and what the operations of the store and of the
degree controllers leave alone. -/

namespace Sys2Proof.Machine

variable {s t u : State}

/-! ## Doing something at each element -/

/-- A property that each step keeps holds at the end. -/
theorem forEach_induct {α : Type} (P : State → Prop) (f : α → State → State) (l : List α) (h0 : P s)
    (h : ∀ x ∈ l, ∀ t, P t → P (f x t)) : P (forEach l f s) := by
  induction l generalizing s with
  | nil => exact h0
  | cons x xs ih => exact ih (h x List.mem_cons_self s h0) fun y hy => h y (List.mem_cons_of_mem x hy)

/-! ## Notices -/

/-- A port that is not ACTIVE takes no notice (R166). -/
theorem offered_of_not_active {x : Port} (n : Notice) (h : x.state ≠ .active) : x.offered n = x := by
  simp [Port.offered, h]

/-- What an offer can change on a port (R166 to R168). -/
theorem offered_kept (x : Port) (n : Notice) :
    x.offered n = { x with
      notices := (x.offered n).notices, lost := (x.offered n).lost, moment := (x.offered n).moment } := by
  unfold Port.offered
  split <;> [rfl; split <;> [rfl; split <;> rfl]]

/-- A notice queue only grows at an offer, and never beyond 16 (R166). -/
theorem offered_notices (x : Port) (n : Notice) :
    x.notices <+: (x.offered n).notices ∧ (x.notices.length ≤ 16 → (x.offered n).notices.length ≤ 16) := by
  unfold Port.offered
  split
  · exact ⟨List.prefix_rfl, id⟩
  · split
    · exact ⟨List.prefix_rfl, id⟩
    · split
      · exact ⟨List.prefix_rfl, id⟩
      · rename_i h
        refine ⟨List.prefix_append _ _, fun _ => ?_⟩
        simp only [Config.noticeCapacity] at h
        simp only [List.length_append, List.length_cons, List.length_nil]
        omega

/-! ## Slots of a port -/

/-- The slot found is free (R154). -/
theorem freeSlot_free {x : Port} {k : SlotNo} (h : x.freeSlot = some k) : x.slots[k] = .free := by
  simpa using List.find?_some h

/-- No slot is found only where none is free (R154). -/
theorem freeSlot_none {x : Port} : x.freeSlot = none ↔ ∀ k : SlotNo, x.slots[k] ≠ .free := by
  simp [Port.freeSlot, List.find?_eq_none]

/-! ## Tables -/

/-- The index found is the lowest one from `lo` on that is not used, below `lo + n` (R2, R5). -/
theorem lowestFree_some {used : List Nat} {lo n i : Nat} (h : lowestFree used lo n = some i) :
    lo ≤ i ∧ i < lo + n ∧ i ∉ used ∧ ∀ j, lo ≤ j → j < i → j ∈ used := by
  induction n generalizing lo with
  | zero => simp [lowestFree] at h
  | succ n ih =>
    unfold lowestFree at h
    split at h
    · rename_i hm
      obtain ⟨h1, h2, h3, h4⟩ := ih h
      refine ⟨by omega, by omega, h3, fun j hj hji => ?_⟩
      rcases Nat.lt_or_ge lo j with hlt | hge
      · exact h4 j hlt hji
      · exact (by omega : j = lo) ▸ hm
    · rename_i hm
      cases h
      exact ⟨Nat.le_refl _, by omega, hm, fun j hj hji => absurd hji (by omega)⟩

/-- No index is found only where all are used (R2, R5). -/
theorem lowestFree_none {used : List Nat} {lo n : Nat} (h : lowestFree used lo n = none) :
    ∀ j, lo ≤ j → j < lo + n → j ∈ used := by
  induction n generalizing lo with
  | zero => intro j h1 h2; omega
  | succ n ih =>
    unfold lowestFree at h
    split at h
    · rename_i hm
      intro j h1 h2
      rcases Nat.lt_or_ge lo j with hlt | hge
      · exact ih h j hlt (by omega)
      · exact (by omega : j = lo) ▸ hm
    · cases h

/-- A record put in a rising table stands at its index; the others stay (R5). -/
theorem mem_putRecord (r x : LinkRecord) (l : List LinkRecord) (h : linksRising l) :
    x ∈ putRecord r l ↔ x = r ∨ (x ∈ l ∧ x.index ≠ r.index) := by
  induction l with
  | nil => simp [putRecord]
  | cons y ys ih =>
    obtain ⟨hy, hys⟩ := List.pairwise_cons.mp h
    unfold putRecord
    split
    · rename_i hlt
      simp only [List.mem_cons]
      constructor
      · rintro (h1 | h1 | h1)
        · exact .inl h1
        · exact .inr ⟨.inl h1, by rw [h1]; omega⟩
        · exact .inr ⟨.inr h1, by have := hy x h1; omega⟩
      · rintro (h1 | ⟨h1 | h1, -⟩)
        · exact .inl h1
        · exact .inr (.inl h1)
        · exact .inr (.inr h1)
    · split
      · rename_i hne heq
        simp only [List.mem_cons]
        constructor
        · rintro (h1 | h1)
          · exact .inl h1
          · exact .inr ⟨.inr h1, by have := hy x h1; omega⟩
        · rintro (h1 | ⟨h1 | h1, h2⟩)
          · exact .inl h1
          · exact absurd (h1 ▸ heq.symm) h2
          · exact .inr h1
      · rename_i hne hne'
        simp only [List.mem_cons, ih hys]
        constructor
        · rintro (h1 | h1 | ⟨h1, h2⟩)
          · exact .inr ⟨.inl h1, by rw [h1]; omega⟩
          · exact .inl h1
          · exact .inr ⟨.inr h1, h2⟩
        · rintro (h1 | ⟨h1 | h1, h2⟩)
          · exact .inr (.inl h1)
          · exact .inl h1
          · exact .inr (.inr ⟨h1, h2⟩)

/-- Putting a record keeps a table rising (R5). -/
theorem rising_putRecord (r : LinkRecord) (l : List LinkRecord) (h : linksRising l) : linksRising (putRecord r l) := by
  induction l with
  | nil => simp [putRecord, linksRising]
  | cons y ys ih =>
    obtain ⟨hy, hys⟩ := List.pairwise_cons.mp h
    unfold putRecord
    split
    · rename_i hlt
      refine List.pairwise_cons.mpr ⟨fun z hz => ?_, h⟩
      rcases List.mem_cons.mp hz with rfl | hz
      · exact hlt
      · exact Nat.lt_trans hlt (hy z hz)
    · split
      · rename_i heq
        exact List.pairwise_cons.mpr ⟨fun z hz => heq ▸ hy z hz, hys⟩
      · rename_i h1 h2
        refine List.pairwise_cons.mpr ⟨fun z hz => ?_, ih hys⟩
        rcases (mem_putRecord r z ys hys).mp hz with rfl | ⟨hz, -⟩
        · omega
        · exact hy z hz

/-! ## Channel maps -/

/-- The table of R11 for one slot. -/
theorem applyMask_get (m : ChannelMap) (o : SlotMask) (i : Fin 96) :
    (applyMask m o)[i] = if m[i].used then m[i] else if o.getLsbD i then .foreign else .free := by
  simp only [applyMask, Fin.getElem_fin, Vector.getElem_ofFn]
  cases hm : m[(i : Nat)] <;> simp [SlotState.used]

/-- The write of a slot range, slot by slot (R82). -/
theorem writeRange_get (m : ChannelMap) (first width : Nat) (v : SlotState) (i : Fin 96) :
    (writeRange m first width v)[i] = if first ≤ i ∧ i < first + width then v else m[i] := by
  simp [writeRange]

/-- A record is in use exactly where some slot is HELD or LIT (R5). -/
theorem mapInUse_iff (m : ChannelMap) : mapInUse m = true ↔ ∃ i : Fin 96, m[i].used = true := by
  simp only [mapInUse, List.any_eq_true, Vector.mem_toList_iff]
  constructor
  · rintro ⟨x, hx, hu⟩
    obtain ⟨i, hi, rfl⟩ := Vector.mem_iff_getElem.mp hx
    exact ⟨⟨i, hi⟩, hu⟩
  · rintro ⟨i, hi⟩
    exact ⟨m[i], Vector.getElem_mem i.2, hi⟩

/-- The overlap of R11. -/
theorem maskOverlaps_iff (m : ChannelMap) (o : SlotMask) :
    maskOverlaps m o = true ↔ ∃ i : Fin 96, o.getLsbD i = true ∧ m[i].used = true := by
  simp [maskOverlaps]

/-! ## What the operations of the store leave alone -/

/-- Degrees, path engine, sequence numbers and the lines of the part are unchanged. -/
structure StoreOnly (s t : State) : Prop where
  degrees   : t.degrees = s.degrees
  engine    : EngineKept s t
  sequences : t.sequences = s.sequences
  lines     : LinesKept s t
  localId   : t.localId = s.localId

theorem StoreOnly.refl (s : State) : StoreOnly s s := ⟨rfl, ⟨rfl, rfl, rfl, rfl⟩, rfl, ⟨rfl, rfl, rfl, rfl, rfl⟩, rfl⟩

theorem StoreOnly.trans (h1 : StoreOnly s t) (h2 : StoreOnly t u) : StoreOnly s u := by
  obtain ⟨a1, ⟨b1, b2, b3, b4⟩, c1, ⟨d1, d2, d3, d4, d5⟩, e1⟩ := h1
  obtain ⟨a1', ⟨b1', b2', b3', b4'⟩, c1', ⟨d1', d2', d3', d4', d5'⟩, e1'⟩ := h2
  exact ⟨a1'.trans a1, ⟨b1'.trans b1, b2'.trans b2, b3'.trans b3, b4'.trans b4⟩, c1'.trans c1,
    ⟨d1'.trans d1, d2'.trans d2, d3'.trans d3, d4'.trans d4, d5'.trans d5⟩, e1'.trans e1⟩

theorem offerAll_storeOnly (n : Notice) (s : State) : StoreOnly s (offerAll n s) :=
  ⟨rfl, ⟨rfl, rfl, rfl, rfl⟩, rfl, ⟨rfl, rfl, rfl, rfl, rfl⟩, rfl⟩

theorem offerTo_storeOnly (p : AgentId) (n : Notice) (s : State) : StoreOnly s (offerTo p n s) :=
  ⟨rfl, ⟨rfl, rfl, rfl, rfl⟩, rfl, ⟨rfl, rfl, rfl, rfl, rfl⟩, rfl⟩

theorem setCircuit_storeOnly (c : CircuitNo) (x : Option Circuit) (s : State) : StoreOnly s (s.setCircuit c x) :=
  ⟨rfl, ⟨rfl, rfl, rfl, rfl⟩, rfl, ⟨rfl, rfl, rfl, rfl, rfl⟩, rfl⟩

theorem putLink_storeOnly (r : LinkRecord) (s : State) : StoreOnly s (s.putLink r) :=
  ⟨rfl, ⟨rfl, rfl, rfl, rfl⟩, rfl, ⟨rfl, rfl, rfl, rfl, rfl⟩, rfl⟩

theorem bumpGeneration_storeOnly (s : State) : StoreOnly s (bumpGeneration s) :=
  ⟨rfl, ⟨rfl, rfl, rfl, rfl⟩, rfl, ⟨rfl, rfl, rfl, rfl, rfl⟩, rfl⟩

theorem raiseNode_storeOnly (id : NodeId) (s : State) : StoreOnly s (raiseNode id s) := by
  unfold raiseNode
  split
  · exact ⟨rfl, ⟨rfl, rfl, rfl, rfl⟩, rfl, ⟨rfl, rfl, rfl, rfl, rfl⟩, rfl⟩
  · split
    · exact ⟨rfl, ⟨rfl, rfl, rfl, rfl⟩, rfl, ⟨rfl, rfl, rfl, rfl, rfl⟩, rfl⟩
    · exact .refl s

theorem lowerNode_storeOnly (id : NodeId) (s : State) : StoreOnly s (lowerNode id s) := by
  unfold lowerNode
  split
  · split <;> exact ⟨rfl, ⟨rfl, rfl, rfl, rfl⟩, rfl, ⟨rfl, rfl, rfl, rfl, rfl⟩, rfl⟩
  · exact .refl s

theorem circuitFollows_storeOnly (i : Nat) (key : LinkKey) (st : LinkState) (c : CircuitNo) (s : State) :
    StoreOnly s (circuitFollows i key st c s) := by
  have h (o : AgentId) (n : Notice) (x : Option Circuit) : StoreOnly s (offerTo o n (s.setCircuit c x)) :=
    (setCircuit_storeOnly c x s).trans (offerTo_storeOnly o n _)
  unfold circuitFollows
  split
  · exact .refl s
  · split
    · exact .refl s
    · split
      · split
        · exact h _ _ _
        · exact .refl s
      · split
        · exact .refl s
        · exact h _ _ _

theorem circuitsFollow_storeOnly (i : Nat) (key : LinkKey) (st : LinkState) (s : State) :
    StoreOnly s (circuitsFollow i key st s) :=
  forEach_induct (StoreOnly s) _ _ (.refl s) fun c _ t h => h.trans (circuitFollows_storeOnly i key st c t)

theorem changeLinkQuietly_storeOnly (old new : LinkRecord) (s : State) : StoreOnly s (changeLinkQuietly old new s) := by
  have h1 := putLink_storeOnly new s
  have h2 : StoreOnly s (match changeReason old new with
      | some r => offerAll (.linkChanged new.key new.state r) (s.putLink new)
      | none => s.putLink new) := by
    split
    · exact h1.trans (offerAll_storeOnly _ _)
    · exact h1
  unfold changeLinkQuietly
  simp only
  split
  · exact h2.trans (circuitsFollow_storeOnly ..)
  · exact h2

theorem changeLink_storeOnly (old new : LinkRecord) (s : State) : StoreOnly s (changeLink old new s) := by
  unfold changeLink
  split
  · exact (bumpGeneration_storeOnly s).trans (changeLinkQuietly_storeOnly ..)
  · exact changeLinkQuietly_storeOnly ..

theorem removeLink_storeOnly (r : LinkRecord) (s : State) : StoreOnly s (removeLink r s) := by
  have h : StoreOnly s { s with links := s.links.filter fun x => x.index ≠ r.index } :=
    ⟨rfl, ⟨rfl, rfl, rfl, rfl⟩, rfl, ⟨rfl, rfl, rfl, rfl, rfl⟩, rfl⟩
  exact (((h.trans (lowerNode_storeOnly _ _)).trans (lowerNode_storeOnly _ _)).trans (bumpGeneration_storeOnly _)).trans
    (offerAll_storeOnly _ _)

theorem createLink_storeOnly (r : LinkRecord) (s : State) : StoreOnly s (createLink r s) :=
  (((raiseNode_storeOnly _ s).trans (raiseNode_storeOnly _ _)).trans
    ((putLink_storeOnly _ _).trans (bumpGeneration_storeOnly _))).trans (offerAll_storeOnly _ _)

theorem setLinkState_storeOnly (key : LinkKey) (st : LinkState) (s : State) : StoreOnly s (setLinkState key st s) := by
  unfold setLinkState
  split
  · exact changeLink_storeOnly ..
  · exact .refl s

theorem setForeign_storeOnly (key : LinkKey) (m : SlotMask) (s : State) : StoreOnly s (setForeign key m s) := by
  unfold setForeign
  split
  · exact changeLink_storeOnly ..
  · exact .refl s

theorem removeDiscovered_storeOnly (key : LinkKey) (s : State) : StoreOnly s (removeDiscovered key s) := by
  unfold removeDiscovered
  split
  · split
    · exact changeLink_storeOnly ..
    · exact removeLink_storeOnly ..
  · exact .refl s

theorem installLink_storeOnly (key : LinkKey) (x : PairData) (m : SlotMask) (s : State) :
    StoreOnly s (installLink key x m s) := by
  unfold installLink
  split
  · exact changeLink_storeOnly ..
  · split
    · exact createLink_storeOnly ..
    · exact .refl s

theorem installPair_storeOnly {p : InstalledPair} {x : PairData} {m : SlotMask} {b : Bool}
    (h : installPair p x m s = some (b, t)) : StoreOnly s t := by
  unfold installPair at h
  split at h
  · cases h
    exact (installLink_storeOnly ..).trans (installLink_storeOnly ..)
  · cases h

theorem setPair_storeOnly (d : DegreeNo) (st : LinkState) (s : State) : StoreOnly s (setPair d st s) := by
  unfold setPair
  split
  · exact (setLinkState_storeOnly ..).trans (setLinkState_storeOnly ..)
  · exact .refl s

/-! ## Moves of a degree -/

/-- A degree that enters a state takes the record it had, in that state, and is told of where the state is new (R105). -/
theorem enterDegree_moves (d : DegreeNo) (st : DegreeState) (reason : DegreeReason) (s : State) :
    enterDegree d st reason s = degreeMoves d (s.degree d).state { s.degree d with state := st } reason s := by
  unfold enterDegree offerDegreeEvent modifyDegree degreeMoves
  by_cases h : (s.degree d).state = st
  · simp [h]
  · have h' : ¬ st = (s.degree d).state := fun e => h e.symm
    simp [h, h']

/-- DEGREE EVENT leaves every degree as it is. -/
theorem offerDegreeEvent_degrees (d : DegreeNo) (old new : DegreeState) (reason : DegreeReason) (s : State) :
    (offerDegreeEvent d old new reason s).degrees = s.degrees := by
  unfold offerDegreeEvent
  split
  · rfl
  · exact (offerAll_storeOnly _ _).1

/-- Before its DEGREE EVENT the entry to LOST leaves the degree quiet, with its recovery mark set, and the others as they are
(R133). -/
theorem loseService_degrees (d : DegreeNo) (s : State) :
    (loseService d s).degrees = s.degrees.set d { quiet (s.degree d) with recovery := true } :=
  (setPair_storeOnly d .down _).1

/-- A line that is lost at once takes the degree to LOST, past the state it enters (R131, R132, R133). -/
theorem enterTimed_lost {d : DegreeNo} {s : State} (st : DegreeState) (reason : DegreeReason) (h : lostAtOnce (s.degree d) = true) :
    enterTimed d st reason s = degreeMoves d st { quiet (s.degree d) with recovery := true, state := .lost } .carrierLoss
      (offerDegreeEvent d (s.degree d).state st reason (loseService d (modifyDegree d (fun x => { x with state := st }) s))) := by
  have hd : (offerDegreeEvent d (s.degree d).state st reason
      (loseService d (modifyDegree d (fun x => { x with state := st }) s))).degree d =
      { quiet (s.degree d) with recovery := true, state := st } := by
    simp [State.degree, offerDegreeEvent_degrees, loseService_degrees, modifyDegree, State.setDegree, quiet]
  rw [enterTimed, if_pos h, enterDegree_moves, hd]

/-- Any other line lets the degree enter the state, and is timed where it is dark (R131). -/
theorem enterTimed_timed {d : DegreeNo} {s : State} (st : DegreeState) (reason : DegreeReason)
    (h : lostAtOnce (s.degree d) = false) :
    enterTimed d st reason s = startLossIfDark d (enterDegree d st reason s) := by
  rw [enterTimed, h]; rfl

/-- An increase of a counter (R143). -/
theorem countUp_cases (d : DegreeNo) (c : CounterName) (s : State) :
    countUp d c s =
      if counterOf (s.degree d) c = 255 then
        offerAll (.counterWrap d c) (s.setDegree d (setCounter (s.degree d) c (counterOf (s.degree d) c + 1)))
      else s.setDegree d (setCounter (s.degree d) c (counterOf (s.degree d) c + 1)) := rfl

end Sys2Proof.Machine
end

