-- ==== Sys2Proof/Laws/Waiting.lean ====
section
/-! SUPPORT. No owner of a command looks at the commands that wait on a port, or changes them: each operation of the owners gives
the same with other commands waiting. -/

namespace Sys2Proof.Machine

/-- Two states with the same ports, and otherwise equal, are equal. -/
theorem State.eq_of_ports {s t : State} (h : ∀ p, s.port p = t.port p) (e : { s with ports := t.ports } = t) : s = t := by
  have hp : s.ports = t.ports := by
    apply Vector.ext
    intro i hi
    exact h ⟨i, hi⟩
  rw [← e, ← hp]

section
variable (a : AgentId) (q : List QueuedCommand) (s : State)

theorem withWaiting_port (p : AgentId) : (withWaiting a q s).port p =
    if p = a then { s.port p with queue := q } else s.port p := by
  unfold withWaiting
  rw [State.setPort_port]
  split
  · next h => rw [h]
  · rfl

/-- A notice is offered alike whatever commands wait (R166). -/
theorem Port.offered_queue (x : Port) (n : Notice) :
    Port.offered { x with queue := q } n = { x.offered n with queue := q } := by
  have hw : Port.wants { x with queue := q } n = x.wants n := by cases n <;> rfl
  simp only [Port.offered, hw]
  split
  · rfl
  · split
    · rfl
    · split <;> rfl

theorem offerAll_withWaiting (n : Notice) : offerAll n (withWaiting a q s) = withWaiting a q (offerAll n s) := by
  refine State.eq_of_ports (fun p => ?_) rfl
  simp only [withWaiting_port, offerAll_port]
  split
  · exact Port.offered_queue q _ n
  · rfl

theorem offerTo_withWaiting (b : AgentId) (n : Notice) :
    offerTo b n (withWaiting a q s) = withWaiting a q (offerTo b n s) := by
  refine State.eq_of_ports (fun p => ?_) rfl
  simp only [withWaiting_port, offerTo, State.setPort_port]
  by_cases h : p = b <;> by_cases h' : p = a <;> simp_all [Port.offered_queue]

theorem answer_withWaiting (t : Ticket) (c : Completion) (b : ResponseBody) :
    answer t c b (withWaiting a q s) = withWaiting a q (answer t c b s) := by
  refine State.eq_of_ports (fun p => ?_) rfl
  simp only [withWaiting_port, answer, State.setPort_port]
  by_cases h : p = t.port <;> by_cases h' : p = a <;> simp_all [Port.fill]

/-- Steps that leave the waiting commands out of account may follow one another. -/
theorem forEach_withWaiting {α : Type} (f : α → State → State)
    (h : ∀ x s, f x (withWaiting a q s) = withWaiting a q (f x s)) (l : List α) :
    forEach l f (withWaiting a q s) = withWaiting a q (forEach l f s) := by
  induction l generalizing s with
  | nil => rfl
  | cons x l ih =>
    show forEach l f (f x (withWaiting a q s)) = withWaiting a q (forEach l f (f x s))
    rw [h, ih]

/-! ### Topology store -/

theorem circuitFollows_withWaiting (i : Nat) (key : LinkKey) (st : LinkState) (c : CircuitNo) :
    circuitFollows i key st c (withWaiting a q s) = withWaiting a q (circuitFollows i key st c s) := by
  unfold circuitFollows
  rw [show (withWaiting a q s).circuit c = s.circuit c from rfl]
  cases s.circuit c with
  | none => rfl
  | some e =>
    dsimp only
    rw [show pathUsable (withWaiting a q s) e.path = pathUsable s e.path from rfl]
    split
    · rfl
    · split
      · split
        · exact offerTo_withWaiting a q (s.setCircuit c _) _ _
        · rfl
      · split
        · rfl
        · exact offerTo_withWaiting a q (s.setCircuit c _) _ _

theorem circuitsFollow_withWaiting (i : Nat) (key : LinkKey) (st : LinkState) :
    circuitsFollow i key st (withWaiting a q s) = withWaiting a q (circuitsFollow i key st s) :=
  forEach_withWaiting a q s _ (fun c s => circuitFollows_withWaiting a q s i key st c) _

theorem changeLinkQuietly_withWaiting (old new : LinkRecord) :
    changeLinkQuietly old new (withWaiting a q s) = withWaiting a q (changeLinkQuietly old new s) := by
  unfold changeLinkQuietly
  rw [show (withWaiting a q s).putLink new = withWaiting a q (s.putLink new) from rfl]
  cases changeReason old new with
  | none =>
    dsimp only
    split
    · exact circuitsFollow_withWaiting a q _ _ _ _
    · rfl
  | some r =>
    dsimp only
    rw [offerAll_withWaiting]
    split
    · exact circuitsFollow_withWaiting a q _ _ _ _
    · rfl

theorem changeLink_withWaiting (old new : LinkRecord) :
    changeLink old new (withWaiting a q s) = withWaiting a q (changeLink old new s) := by
  unfold changeLink
  split
  · exact changeLinkQuietly_withWaiting a q (bumpGeneration s) old new
  · exact changeLinkQuietly_withWaiting a q s old new

theorem raiseNode_withWaiting (id : NodeId) : raiseNode id (withWaiting a q s) = withWaiting a q (raiseNode id s) := by
  unfold raiseNode
  rw [show (withWaiting a q s).nodeById id = s.nodeById id from rfl,
    show (withWaiting a q s).freeNodeIndex = s.freeNodeIndex from rfl]
  cases s.nodeById id
  · cases s.freeNodeIndex <;> rfl
  · rfl

theorem lowerNode_withWaiting (id : NodeId) : lowerNode id (withWaiting a q s) = withWaiting a q (lowerNode id s) := by
  unfold lowerNode
  rw [show (withWaiting a q s).nodeById id = s.nodeById id from rfl]
  cases s.nodeById id
  · rfl
  · dsimp only
    split <;> rfl

theorem removeLink_withWaiting (r : LinkRecord) : removeLink r (withWaiting a q s) = withWaiting a q (removeLink r s) := by
  let u : State := { s with links := s.links.filter fun x => x.index ≠ r.index }
  have h : lowerNode r.key.toNode (lowerNode r.key.fromNode (withWaiting a q u)) =
      withWaiting a q (lowerNode r.key.toNode (lowerNode r.key.fromNode u)) := by
    rw [lowerNode_withWaiting, lowerNode_withWaiting]
  exact (congrArg (fun v => offerAll (.linkChanged r.key r.state .removed) (bumpGeneration v)) h).trans
    (offerAll_withWaiting a q (bumpGeneration _) _)

theorem createLink_withWaiting (r : LinkRecord) : createLink r (withWaiting a q s) = withWaiting a q (createLink r s) := by
  unfold createLink
  dsimp only
  rw [raiseNode_withWaiting, raiseNode_withWaiting,
    show ∀ t, bumpGeneration ((withWaiting a q t).putLink r) = withWaiting a q (bumpGeneration (t.putLink r)) from fun _ => rfl,
    offerAll_withWaiting]

theorem recheckDeferred_withWaiting (i : Nat) :
    recheckDeferred i (withWaiting a q s) = withWaiting a q (recheckDeferred i s) := by
  unfold recheckDeferred
  rw [show (withWaiting a q s).linkAt i = s.linkAt i from rfl]
  cases s.linkAt i
  · rfl
  · dsimp only
    split
    · exact removeLink_withWaiting a q s _
    · rfl

theorem storeAdvertise_withWaiting (t : Ticket) (p : AdvertiseParams) :
    storeAdvertise t p (withWaiting a q s) = withWaiting a q (storeAdvertise t p s) := by
  unfold storeAdvertise
  rw [show (withWaiting a q s).linkByKey p.key = s.linkByKey p.key from rfl,
    show (withWaiting a q s).freeLinkIndex = s.freeLinkIndex from rfl,
    show (withWaiting a q s).freeNodes = s.freeNodes from rfl,
    show (withWaiting a q s).unknownNodes = s.unknownNodes from rfl]
  simp only [answer_withWaiting, changeLink_withWaiting, createLink_withWaiting]
  split
  · rfl
  · split
    · rfl
    · split
      · split <;> rfl
      · split
        · rfl
        · split <;> rfl

theorem storeWithdraw_withWaiting (t : Ticket) (k : LinkKey) :
    storeWithdraw t k (withWaiting a q s) = withWaiting a q (storeWithdraw t k s) := by
  unfold storeWithdraw
  rw [show (withWaiting a q s).linkByKey k = s.linkByKey k from rfl]
  simp only [answer_withWaiting, removeLink_withWaiting]
  split
  · rfl
  · split
    · rfl
    · split <;> rfl

theorem storeQuery_withWaiting (t : Ticket) (k : LinkKey) :
    storeQuery t k (withWaiting a q s) = withWaiting a q (storeQuery t k s) := by
  unfold storeQuery
  rw [show (withWaiting a q s).linkByKey k = s.linkByKey k from rfl]
  simp only [answer_withWaiting]
  split <;> rfl

theorem storeList_withWaiting (t : Ticket) (i : BitVec 16) :
    storeList t i (withWaiting a q s) = withWaiting a q (storeList t i s) := by
  unfold storeList
  simp only [answer_withWaiting]
  split <;> rfl

theorem storeSetLocal_withWaiting (t : Ticket) (id : NodeId) :
    storeSetLocal t id (withWaiting a q s) = withWaiting a q (storeSetLocal t id s) := by
  unfold storeSetLocal
  rw [show placeLocal id (withWaiting a q s) = withWaiting a q (placeLocal id s) from rfl,
    show (withWaiting a q s).localId = s.localId from rfl]
  simp only [answer_withWaiting]
  split <;> rfl

/-! ### Path engine -/

theorem arbitrate_withWaiting (n : Nat) : arbitrate n (withWaiting a q s) = withWaiting a q (arbitrate n s) := by
  induction n generalizing s with
  | zero => rfl
  | succ n ih =>
    unfold arbitrate
    rw [show (withWaiting a q s).running = s.running from rfl, show nextPort (withWaiting a q s) = nextPort s from rfl]
    cases s.running with
    | some _ => rfl
    | none =>
      cases nextPort s with
      | none => rfl
      | some p =>
        dsimp only
        rw [show (withWaiting a q s).queuedOf p = s.queuedOf p from rfl]
        cases s.queuedOf p with
        | nil => rfl
        | cons r rest =>
          dsimp only
          split
          · next h =>
            rw [if_pos (show endpointsPresent { s.setQueued p rest with lastServed := p } r = true from h)]
            rfl
          · next h =>
            rw [if_neg (show ¬ endpointsPresent { s.setQueued p rest with lastServed := p } r = true from h)]
            exact (congrArg (arbitrate n) (answer_withWaiting a q { s.setQueued p rest with lastServed := p } _ _ _)).trans (ih _)

theorem runArbiter_withWaiting : runArbiter (withWaiting a q s) = withWaiting a q (runArbiter s) :=
  arbitrate_withWaiting a q s (totalQueued s + 1)

theorem requestGrid_withWaiting (p : AgentId) : ((withWaiting a q s).port p).grid = (s.port p).grid := by
  rw [withWaiting_port]
  split <;> rfl

theorem enginePathRequest_withWaiting (t : Ticket) (p : PathParams) :
    enginePathRequest t p (withWaiting a q s) = withWaiting a q (enginePathRequest t p s) := by
  unfold enginePathRequest
  have h1 : admissionRefusal (withWaiting a q s) t.port p = admissionRefusal s t.port p := by
    unfold admissionRefusal
    rw [requestGrid_withWaiting]
    rfl
  have h2 : requestOf (withWaiting a q s) t p = requestOf s t p := by
    unfold requestOf
    rw [requestGrid_withWaiting]
    rfl
  rw [h1, h2]
  cases admissionRefusal s t.port p with
  | some code => exact answer_withWaiting a q s _ _ _
  | none => exact runArbiter_withWaiting a q (s.setQueued t.port _)

theorem cancelQueued_withWaiting (t : Ticket) (tag : BitVec 16) :
    cancelQueued t tag (withWaiting a q s) = withWaiting a q (cancelQueued t tag s) := by
  unfold cancelQueued
  rw [show (withWaiting a q s).queuedOf t.port = s.queuedOf t.port from rfl]
  split
  · rw [show ∀ l, (withWaiting a q s).setQueued t.port l = withWaiting a q (s.setQueued t.port l) from fun _ => rfl]
    simp only [cancelled, answer_withWaiting]
  · exact answer_withWaiting a q s _ _ _

theorem enginePathCancel_withWaiting (t : Ticket) (tag : BitVec 16) :
    enginePathCancel t tag (withWaiting a q s) = withWaiting a q (enginePathCancel t tag s) := by
  unfold enginePathCancel
  rw [show (withWaiting a q s).running = s.running from rfl, cancelQueued_withWaiting]
  cases s.running with
  | none => rfl
  | some run =>
    dsimp only
    split
    · rw [show ({ withWaiting a q s with running := none } : State) = withWaiting a q { s with running := none } from rfl]
      simp only [cancelled, answer_withWaiting, runArbiter_withWaiting]
    · rfl

theorem engineSetClass_withWaiting (t : Ticket) (c : Byte) (f : IfField) :
    engineSetClass t c f (withWaiting a q s) = withWaiting a q (engineSetClass t c f s) := by
  unfold engineSetClass
  split
  · split
    · rw [show ∀ x, ({ withWaiting a q s with classes := x } : State) = withWaiting a q { s with classes := x } from
        fun _ => rfl, answer_withWaiting, offerAll_withWaiting]
      rfl
    · exact answer_withWaiting a q s _ _ _
  · exact answer_withWaiting a q s _ _ _

/-! ### Circuit table -/

theorem writePath_withWaiting (first width : Nat) (v : SlotState) (path : List PathHop) :
    writePath first width v path (withWaiting a q s) = withWaiting a q (writePath first width v path s) := by
  refine forEach_withWaiting a q s _ (fun i s => ?_) _
  unfold writeSlots
  rw [show (withWaiting a q s).linkAt i = s.linkAt i from rfl]
  cases s.linkAt i <;> rfl

theorem removeCircuit_withWaiting (c : CircuitNo) (e : Circuit) :
    removeCircuit c e (withWaiting a q s) = withWaiting a q (removeCircuit c e s) := by
  unfold removeCircuit
  dsimp only
  rw [writePath_withWaiting]
  generalize writePath e.firstSlot e.width .free e.path s = u
  refine (congrArg (forEach _ recheckDeferred) ?_).trans
    (forEach_withWaiting a q _ _ (fun i s => recheckDeferred_withWaiting a q s i) _)
  cases e.partner with
  | none => rfl
  | some x =>
    dsimp only
    unfold clearPartner
    rw [show ((withWaiting a q u).setCircuit c none).circuit x = (u.setCircuit c none).circuit x from rfl]
    cases (u.setCircuit c none).circuit x <;> rfl

theorem circuitCommit_withWaiting (t : Ticket) (i n : Byte) :
    circuitCommit t i n (withWaiting a q s) = withWaiting a q (circuitCommit t i n s) := by
  unfold circuitCommit
  rw [show checkHandle t.port i n (withWaiting a q s) = checkHandle t.port i n s from rfl]
  cases checkHandle t.port i n s with
  | error code => exact answer_withWaiting a q s _ _ _
  | ok x =>
    dsimp only
    split
    · unfold lightCircuit
      rw [show ∀ y, (withWaiting a q s).setCircuit x.1 y = withWaiting a q (s.setCircuit x.1 y) from fun _ => rfl,
        writePath_withWaiting, answer_withWaiting]
    · exact answer_withWaiting a q s _ _ _

theorem circuitRelease_withWaiting (t : Ticket) (i n : Byte) :
    circuitRelease t i n (withWaiting a q s) = withWaiting a q (circuitRelease t i n s) := by
  unfold circuitRelease
  rw [show checkHandle t.port i n (withWaiting a q s) = checkHandle t.port i n s from rfl]
  simp only [answer_withWaiting, removeCircuit_withWaiting]
  split <;> rfl

theorem circuitQuery_withWaiting (t : Ticket) (i : Byte) :
    circuitQuery t i (withWaiting a q s) = withWaiting a q (circuitQuery t i s) := by
  unfold circuitQuery
  simp only [answer_withWaiting]
  split
  · rw [show ∀ c, (withWaiting a q s).circuit c = s.circuit c from fun _ => rfl]
    split <;> rfl
  · rfl

/-! ### Degree controllers -/

theorem modifyDegree_withWaiting (d : DegreeNo) (f : Degree → Degree) :
    modifyDegree d f (withWaiting a q s) = withWaiting a q (modifyDegree d f s) := rfl

theorem offerDegreeEvent_withWaiting (d : DegreeNo) (x y : DegreeState) (r : DegreeReason) :
    offerDegreeEvent d x y r (withWaiting a q s) = withWaiting a q (offerDegreeEvent d x y r s) := by
  unfold offerDegreeEvent
  split
  · rfl
  · exact offerAll_withWaiting a q s _

theorem enterDegree_withWaiting (d : DegreeNo) (st : DegreeState) (r : DegreeReason) :
    enterDegree d st r (withWaiting a q s) = withWaiting a q (enterDegree d st r s) :=
  offerDegreeEvent_withWaiting a q (modifyDegree d (fun x => { x with state := st }) s) d (s.degree d).state st r

theorem setLinkState_withWaiting (k : LinkKey) (st : LinkState) :
    setLinkState k st (withWaiting a q s) = withWaiting a q (setLinkState k st s) := by
  unfold setLinkState
  rw [show (withWaiting a q s).discovered k = s.discovered k from rfl]
  cases s.discovered k
  · rfl
  · exact changeLink_withWaiting a q s _ _

theorem setPair_withWaiting (d : DegreeNo) (st : LinkState) :
    setPair d st (withWaiting a q s) = withWaiting a q (setPair d st s) := by
  unfold setPair
  rw [show (withWaiting a q s).degree d = s.degree d from rfl]
  cases (s.degree d).installedPair
  · rfl
  · simp only [setLinkState_withWaiting]

theorem removeDiscovered_withWaiting (k : LinkKey) :
    removeDiscovered k (withWaiting a q s) = withWaiting a q (removeDiscovered k s) := by
  unfold removeDiscovered
  rw [show (withWaiting a q s).discovered k = s.discovered k from rfl]
  simp only [changeLink_withWaiting, removeLink_withWaiting]
  split
  · split <;> rfl
  · rfl

theorem removePair_withWaiting (d : DegreeNo) : removePair d (withWaiting a q s) = withWaiting a q (removePair d s) := by
  unfold removePair
  rw [show (withWaiting a q s).degree d = s.degree d from rfl]
  cases (s.degree d).installedPair
  · rfl
  · simp only [removeDiscovered_withWaiting, modifyDegree_withWaiting]

theorem enterFailed_withWaiting (d : DegreeNo) (st : DegreeState) (r : DegreeReason) :
    enterFailed d st r (withWaiting a q s) = withWaiting a q (enterFailed d st r s) := by
  simp only [enterFailed, modifyDegree_withWaiting, setPair_withWaiting, enterDegree_withWaiting]

theorem loseService_withWaiting (d : DegreeNo) : loseService d (withWaiting a q s) = withWaiting a q (loseService d s) := by
  simp only [loseService, modifyDegree_withWaiting, setPair_withWaiting]

theorem startLossIfDark_withWaiting (d : DegreeNo) :
    startLossIfDark d (withWaiting a q s) = withWaiting a q (startLossIfDark d s) := by
  unfold startLossIfDark startLossTimer lossDeclared enterLost
  simp only [show (withWaiting a q s).degree d = s.degree d from rfl, loseService_withWaiting, enterDegree_withWaiting,
    modifyDegree_withWaiting]
  split
  · split
    · split <;> rfl
    · rfl
  · rfl

theorem enterTimed_withWaiting (d : DegreeNo) (st : DegreeState) (r : DegreeReason) :
    enterTimed d st r (withWaiting a q s) = withWaiting a q (enterTimed d st r s) := by
  unfold enterTimed
  simp only [show (withWaiting a q s).degree d = s.degree d from rfl, modifyDegree_withWaiting, loseService_withWaiting,
    offerDegreeEvent_withWaiting, enterDegree_withWaiting, startLossIfDark_withWaiting]
  split <;> rfl

theorem startDiscovery_withWaiting (d : DegreeNo) (r : DegreeReason) :
    startDiscovery d r (withWaiting a q s) = withWaiting a q (startDiscovery d r s) := by
  unfold startDiscovery
  simp only [modifyDegree_withWaiting, show ∀ u, (withWaiting a q u).localId = u.localId from fun _ => rfl,
    show ∀ u, (withWaiting a q u).degree d = u.degree d from fun _ => rfl, enterTimed_withWaiting, enterFailed_withWaiting,
    startLossIfDark_withWaiting]
  split
  · rfl
  · split <;> rfl

theorem applyEnable_withWaiting (d : DegreeNo) (e : Bool) :
    applyEnable d e (withWaiting a q s) = withWaiting a q (applyEnable d e s) := by
  unfold applyEnable disableDegree
  simp only [show (withWaiting a q s).degree d = s.degree d from rfl, enterTimed_withWaiting, modifyDegree_withWaiting,
    removePair_withWaiting, enterDegree_withWaiting]
  split
  · split <;> rfl
  · split <;> rfl

theorem degreeSet_withWaiting (t : Ticket) (b : Byte) (p : DegreeParams) :
    degreeSet t b p (withWaiting a q s) = withWaiting a q (degreeSet t b p s) := by
  unfold degreeSet
  simp only [modifyDegree_withWaiting, answer_withWaiting, applyEnable_withWaiting]
  split <;> rfl

theorem degreeDiscover_withWaiting (t : Ticket) (b : Byte) :
    degreeDiscover t b (withWaiting a q s) = withWaiting a q (degreeDiscover t b s) := by
  unfold degreeDiscover
  simp only [answer_withWaiting, startDiscovery_withWaiting]
  split
  · rfl
  · next d _ =>
    rw [show (withWaiting a q s).localId = s.localId from rfl, show (withWaiting a q s).degree d = s.degree d from rfl]
    split <;> rfl

theorem degreeQuery_withWaiting (t : Ticket) (b : Byte) :
    degreeQuery t b (withWaiting a q s) = withWaiting a q (degreeQuery t b s) := by
  unfold degreeQuery
  simp only [answer_withWaiting, modifyDegree_withWaiting]
  split <;> rfl

theorem degreeLoadCounter_withWaiting (t : Ticket) (b c v : Byte) :
    degreeLoadCounter t b c v (withWaiting a q s) = withWaiting a q (degreeLoadCounter t b c v s) := by
  unfold degreeLoadCounter
  simp only [answer_withWaiting, modifyDegree_withWaiting]
  split <;> rfl

/-! ### Notice unit, and every owner -/

theorem noticeSetFilter_withWaiting (t : Ticket) (es : List FilterEntry) (m : DegreeMask) :
    noticeSetFilter t es m (withWaiting a q s) = withWaiting a q (noticeSetFilter t es m s) := by
  have h : ∀ f : Port → Port, (∀ x : Port, f { x with queue := q } = { f x with queue := q }) →
      modifyPort t.port f (withWaiting a q s) = withWaiting a q (modifyPort t.port f s) := by
    intro f hf
    refine State.eq_of_ports (fun p => ?_) rfl
    simp only [withWaiting_port, modifyPort, State.setPort_port]
    by_cases h : p = t.port <;> by_cases h' : p = a <;> simp_all
  unfold noticeSetFilter
  rw [h _ fun _ => rfl, answer_withWaiting, answer_withWaiting]
  split <;> rfl

/-- The owner of a command acts alike whatever waits behind it, and leaves that waiting (R154, R155). -/
theorem passToOwner_withWaiting (t : Ticket) (c : AgentCommand) :
    passToOwner t c (withWaiting a q s) = withWaiting a q (passToOwner t c s) := by
  cases c with
  | advertiseLink p => exact storeAdvertise_withWaiting a q s t p
  | withdrawLink k => exact storeWithdraw_withWaiting a q s t k
  | queryLink k => exact storeQuery_withWaiting a q s t k
  | listLinks i => exact storeList_withWaiting a q s t i
  | setLocal id => exact storeSetLocal_withWaiting a q s t id
  | pathRequest p => exact enginePathRequest_withWaiting a q s t p
  | pathCancel tag => exact enginePathCancel_withWaiting a q s t tag
  | setClass c f => exact engineSetClass_withWaiting a q s t c f
  | commit i n => exact circuitCommit_withWaiting a q s t i n
  | release i n => exact circuitRelease_withWaiting a q s t i n
  | queryCircuit i => exact circuitQuery_withWaiting a q s t i
  | setDegree d p => exact degreeSet_withWaiting a q s t d p
  | discover d => exact degreeDiscover_withWaiting a q s t d
  | queryDegree d => exact degreeQuery_withWaiting a q s t d
  | loadCounter d c v => exact degreeLoadCounter_withWaiting a q s t d c v
  | setFilter es m => exact noticeSetFilter_withWaiting a q s t es m

/-- An owner leaves the command queue of every port as it is. -/
theorem passToOwner_queue (t : Ticket) (c : AgentCommand) : ((passToOwner t c s).port a).queue = (s.port a).queue := by
  have h : withWaiting a (s.port a).queue s = s := by
    refine State.eq_of_ports (fun p => ?_) rfl
    rw [withWaiting_port]
    split
    · next h => rw [h]
    · rfl
  have := passToOwner_withWaiting a (s.port a).queue s t c
  rw [h] at this
  rw [this, withWaiting_port, if_pos rfl]

/-- The take of one command, well formed or not, leaves those behind it waiting (R154). -/
theorem dispatch_queue (c : QueuedCommand) (k : SlotNo) : ((dispatch a c k s).port a).queue = (s.port a).queue := by
  cases c with
  | malformed ref kind => simp [dispatch, answer, Port.fill]
  | wellFormed ref cmd => exact passToOwner_queue a s _ cmd

/-- The takes of an event are the take of the head, then those of the commands behind it (R154). -/
theorem takeAll_head {c : QueuedCommand} {rest : List QueuedCommand} {k : SlotNo} (ha : (s.port a).state = .active)
    (hq : (s.port a).queue = c :: rest) (hk : (s.port a).freeSlot = some k) :
    takeAll a s = takeAll a (dispatch a c k (s.setPort a ((s.port a).takeHead c rest k))) := by
  have h1 : takeOne a s = dispatch a c k (s.setPort a ((s.port a).takeHead c rest k)) := by
    simp [takeOne, ha, hq, hk]
  have h2 : ((dispatch a c k (s.setPort a ((s.port a).takeHead c rest k))).port a).queue = rest := by
    rw [dispatch_queue, State.setPort_port_same]
    rfl
  rw [takeAll, hq, List.length_cons, takeMany, h1, takeAll, h2]

/-- SEND: one frame leaves, then the waiting commands are taken (R154, R156, R159). -/
theorem send_then_take : exec (.send a) s = exec (.take a) (modifyPort a Port.sendFrame s) := rfl

end

end Sys2Proof.Machine
end

