-- ==== Sys2Proof/Tests/Slice0.lean ====
section
/-! SUPPORT. Tests: the smoke tests of WellFormed, the manual's worked cases, small steps of the commands, and for each statement
with hypotheses a state and operands that meet them. -/

namespace Sys2Proof.Tests

open Sys2Proof Sys2Proof.Machine

/-! ## Small states -/

/-- An ACTIVE port with all its credits, no command waiting and every slot free. -/
def agentPort : Port :=
  { Port.powerOn with state := .active, linkUp := true, grid := some .g50, credits := 8, responseCredit := .unlimited }

/-- READY, every agent ACTIVE, nothing else. -/
def ready : State := { State.reset with loadState := .ready, portEnable := 15, ports := Vector.replicate 4 agentPort }

/-- `ready` with every port as `x`. -/
def onPort (x : Port) : State := { ready with ports := Vector.replicate 4 x }

/-- `ready` with local node 1 and every degree as `x`. -/
def onDegree (x : Degree) : State :=
  { ready with localId := 1, nodes := [⟨1, 0, .localNode, 0⟩], degrees := Vector.replicate 8 x }

def key12 : LinkKey := ⟨1, 2, 0⟩
def key21 : LinkKey := ⟨2, 1, 5⟩

/-- An UP link of agent 1 with every slot FREE. -/
def link12 : LinkRecord :=
  { key := key12, index := 0, owner := .agent 1, state := .up, cost := 3, delay := 7, noise := 0, srlg := []
    capability := BitVec.allOnes 96, channels := Vector.replicate 96 .free, lifetime := some 2, grace := none
    removalDeferred := false, illegalNoise := false, discoveredPair := false }

/-- Slot 0 LIT by circuit 0. -/
def usedMap : ChannelMap := (Vector.replicate 96 SlotState.free).set 0 (.lit 0)

/-- Local node 1, node 2, and one link between them. -/
def withLink (r : LinkRecord) : State :=
  { ready with localId := 1, nodes := [⟨1, 0, .localNode, 1⟩, ⟨2, 1, .remote, 1⟩], links := [r] }

/-- The pair of a degree towards node 2. -/
def pair12 : InstalledPair := ⟨key12, key21⟩

def found (key : LinkKey) (i : Nat) (st : LinkState) : LinkRecord :=
  { link12 with key := key, index := i, owner := .discovery, state := st, lifetime := none, discoveredPair := true }

/-- Both links of `pair12`, DISCOVERY's, and every degree as `x`. -/
def withPair (st : LinkState) (x : Degree) : State :=
  { onDegree x with
    nodes := [⟨1, 0, .localNode, 2⟩, ⟨2, 1, .remote, 2⟩], links := [found key12 0 st, found key21 1 st] }

def heldCircuit : Circuit :=
  { state := .held, owner := 1, tag := 5, firstSlot := 0, width := 1, path := [⟨0, key12⟩], partner := none
    role := .working, hold := some 1, affected := false }

/-- One entry at index 0, with sequence 1. -/
def withCircuit (e : Circuit) : State :=
  { withLink { link12 with channels := usedMap } with
    circuits := (Vector.replicate 64 none).set 0 (some e), sequences := (Vector.replicate 64 0).set 0 1 }

def request (ref tag : BitVec 16) (slot : SlotNo) : Request :=
  { ref := ref, slot := slot, tag := tag, source := 1, destination := 2, cls := 0, threshold := maxIf, width := 1
    channel := some 0, direction := .lowFirst, policy := .firstFit, maxHops := 16, delayBound := 0
    allowDegraded := false, exclusions := [], diversity := .none, hold := .none, holdTime := 10, arithmetic := .tolerant
    overflow := false, illegalSkipped := false, retries := 0, captured := none }

/-- Agent 1's search on channel 0 with this frontier. -/
def running (frontier settled : List Label) : Running :=
  { port := 1, req := { request 8 3 0 with captured := some 0 }, stage := .working, candidate := 0, remaining := []
    frontier := frontier, settled := settled, protecting := none, workRemaining := [], ranking := [], firstWorking := none }

/-- The state that `exec` gives. -/
def after (i : Instr) (s : State) : State :=
  match exec i s with
  | .next t => t
  | .fault _ => s
  | .refused _ => s

/-! ## WellFormed: each check refuses an ill-formed term -/

theorem test_wf_advertise : (Instr.advertiseLink 0 0 ⟨key12, 1, 0, 0, 0, List.replicate 256 1, 0, 0, 0⟩).wellFormed = false := by decide +kernel
theorem test_wf_exclusion_kind : (ExclusionEntry.unknown 2).wellFormed = false := by decide
theorem test_wf_exclusion_in_request :
    (Instr.pathRequest 0 0 ⟨0, 1, 2, 0, 0, 0, 0, 0, 0, 0, false, 0, 0, 0, 0, [.unknown 3]⟩).wellFormed = false := by decide
theorem test_wf_any_with_channel :
    (Instr.pathRequest 0 0 ⟨0, 1, 2, 0, 0, 5, 0, 0, 0, 0, false, 0, 0, 0, 0, []⟩).wellFormed = false := by decide
theorem test_wf_exclusion_count :
    (Instr.pathRequest 0 0 ⟨0, 1, 2, 0, 1, 5, 0, 0, 0, 0, false, 0, 0, 0, 0, List.replicate 256 (.srlg 1)⟩).wellFormed =
      false := by decide +kernel
theorem test_wf_degree :
    (Instr.setDegree 0 0 0 ⟨true, 0, 0, 0, List.replicate 256 1, 0, 0, 0⟩).wellFormed = false := by decide +kernel
theorem test_wf_filter : (Instr.setFilter 0 0 (List.replicate 256 ⟨0, 0⟩) 0).wellFormed = false := by decide +kernel
theorem test_wf_command : (Instr.command 0 (List.replicate 3201 0)).wellFormed = false := by decide +kernel
theorem test_wf_ident : (Instr.identAnswer 0 ⟨2, 0, 0, 0, 16, false⟩).wellFormed = false := by decide
theorem test_wf_chain_empty : (Instr.chainAnswer 0 0 [] false).wellFormed = false := by decide
theorem test_wf_chain_long : (Instr.chainAnswer 0 0 (List.replicate 6 ⟨1, 1, 1, 0, false⟩) false).wellFormed = false := by
  decide
theorem test_wf_image : (Instr.configurationApplied (List.replicate 245 0)).wellFormed = false := by decide +kernel
theorem test_no_word_decodes (n w : Nat) : decodeTableWord n w = none := rfl

/-! ## Worked cases of the manual -/

/-- A figure of section 2.6 in 48ths: `fig m (e + 48)`. -/
def fig (m c : Nat) : IfField := figPack m c

/-- Case 1: MULT((2600, -17), 90 km) is (3657, -11). -/
theorem test_case1_mult : figMult (fig 2600 31) (figNormalize 1440 4) = (fig 3657 37, noExceptions) := by decide
/-- Case 1: the fold of both sites is (3454, -10), sent as 03h 5Fh A6h (section 10.2). -/
theorem test_case1_add : figAdd (fig 3250 37) (fig 3657 37) = (0x035FA6, noExceptions) := by decide
/-- Case 2: the second ADD gives (3642, -10); it passes (2621, -8) and fails (3600, -10). -/
theorem test_case2 : figAdd (fig 3454 38) (figNormalize 1500 24) = (fig 3642 38, noExceptions) ∧
    figCompare (fig 3642 38) (fig 2621 40) = true ∧ figCompare (fig 3642 38) (fig 3600 38) = false := by decide
/-- Case 4: saturation. -/
theorem test_case4 : figAdd (fig 4000 63) (fig 4000 63) = (maxIf, { noExceptions with overflow := true }) := by decide
/-- Case 5: underflow. -/
theorem test_case5 : figMult (fig 2048 0) (figNormalize 1 4) = (0, { noExceptions with underflow := true }) := by decide
/-- Case 6: (2896, -20) over 23 sixteenths is (2082, -19), and over 2896 the carry gives (2048, -12). -/
theorem test_case6 : figMult (fig 2896 28) (figNormalize 23 4) = (fig 2082 29, noExceptions) ∧
    figMult (fig 2896 28) (figNormalize 2896 4) = (fig 2048 36, noExceptions) := by decide
/-- Case 3: the order of reporting decides between (2050, 0) and (2049, 0). -/
theorem test_case3 :
    foldNoise .native [⟨1, 1, 1, fig 2048 48, false⟩, ⟨2, 1, 1, fig 2048 36, false⟩, ⟨3, 1, 1, fig 2048 36, false⟩] =
      (fig 2050 48, noExceptions) ∧
    foldNoise .native [⟨2, 1, 1, fig 2048 36, false⟩, ⟨3, 1, 1, fig 2048 36, false⟩, ⟨1, 1, 1, fig 2048 48, false⟩] =
      (fig 2049 48, noExceptions) := by decide
/-- Case 7: M = 1500 is illegal; TOLERANT refuses the link, STRICT ends the request. -/
theorem test_case7 : figLegal (fig 1500 40) = false ∧
    (arithSteps (request 8 3 0) ⟨1, 0, 0, 0, 0, 0, none⟩ { link12 with illegalNoise := true }).verdict = .refused ∧
    (arithSteps { request 8 3 0 with arithmetic := .strict } ⟨1, 0, 0, 0, 0, 0, none⟩
      { link12 with illegalNoise := true }).verdict = .abort := by decide
/-- Section 10.8: the body of the PATH REQUEST. -/
theorem test_body_10_8 : commandBody 0x0107 (.pathRequest
    ⟨0x0310, 0x6A02, 0x6A04, 3, 0, 0, 0, 0, 0, 0, false, 0, 1, 0, 0, [.srlg 40]⟩) =
    [1, 7, 6, 0, 3, 0x10, 0, 0, 0x6A, 2, 0, 0, 0x6A, 4, 3, 0, 0, 0, 0, 0, 0, 0, 0, 0, 0, 1, 0, 0, 0, 1, 0, 0,
      3, 0, 0, 0x28, 0, 0, 0, 0, 0, 0, 0, 0] := by decide
/-- Section 10.8: one byte less is malformed. -/
theorem test_body_short : judgeBody ((commandBody 0x0107 (.queryCircuit 5)).dropLast) = .malformed 0x0107 11 := by decide
/-- Section 10.8: the contents of the result. -/
theorem test_result_10_8 : resultBytes
    { tag := 0x0310, staleTopology := true, overflow := false, illegalSkipped := false, retries := 0
      working := some ⟨5, [⟨0x6A02, 0x5001, 2⟩, ⟨0x5001, 0x6A04, 4⟩], 200, 1120, fig 3642 38, 2⟩, protection := none
      handles := [⟨11, 3⟩] } =
    [3, 0x10, 0x29, 0, 5, 2, 0, 0, 0, 0, 0, 0xC8, 0, 4, 0x60, 0, 3, 0x8E, 0xA6, 0,
      0, 0, 0x6A, 2, 0, 0, 0x50, 1, 2, 0, 0, 0, 0, 0, 0x50, 1, 0, 0, 0x6A, 4, 4, 0, 0, 0, 0x0B, 3] := by decide
/-- R182: the CRC of the digits 1 to 9 (the well-known check CBF43926h of this polynomial, start and bit order, with the
remainder's bits in the opposite order, as R182 stores it unreflected: 649C2FD3h). -/
theorem test_crc : (crcOf [0x31, 0x32, 0x33, 0x34, 0x35, 0x36, 0x37, 0x38, 0x39]).reverse = 0xCBF43926#32 := by decide +kernel
/-- R182: slot 0 is bit 7 of the first byte, degree 0 bit 7. -/
theorem test_mask_order : maskBytes 1 = [0x80, 0, 0, 0, 0, 0, 0, 0, 0, 0, 0, 0] ∧ degreeMaskByte 1 = 0x80 := by decide +kernel
/-- Section 7.10: INIT (REJECT) with the error count 4, and the ACCEPT for G100. -/
theorem test_init_7_10 : initBody (.reject 9) 4 = [3, 9, 0, 3, 0, 96, 0, 4] ∧
    initBody (.accept .g100) 4 = [2, 2, 8, 3, 0, 96, 0, 4] := by decide
/-- Section 8.6: the filter 6A00h/FFFFFF00h passes 6A06h and refuses 5001h and 7100h. -/
theorem test_filter_8_6 : filterHits ⟨0x6A00, 0xFFFFFF00⟩ 0x6A06 = true ∧ filterHits ⟨0x6A00, 0xFFFFFF00⟩ 0x5001 = false ∧
    filterHits ⟨0x6A00, 0xFFFFFF00⟩ 0x7100 = false := by decide
/-- Section 7.2: 8 slots, agents' INIT of grid G50 makes the port ACTIVE. -/
theorem test_init_accepts : ((after (.init 2 1 2 5) (onPort { Port.powerOn with state := .init, linkUp := true })).port 2).state =
    .active := by decide

/-! ## Small steps -/

theorem test_step_takes_front :
    step { State.reset with pending := [.linkUp 1] } = exec (.linkUp 1) State.reset := rfl
/-- R25: an empty table lists nothing, next index 1024. -/
theorem test_list_empty : ((after (.listLinks 1 7 0) ready).port 1).slots[0] =
    .filled ⟨7, 4, .ok, .links [] 1024 0⟩ 0 := by decide
/-- R4: SET LOCAL puts the node at index 0. -/
theorem test_set_local : (after (.setLocal 1 7 9) ready).nodes = [⟨9, 0, .localNode, 0⟩] := by decide
/-- R7: equal endpoints. -/
theorem test_advertise_bad : ((after (.advertiseLink 1 7 ⟨⟨1, 1, 0⟩, 1, 0, 0, 0, [], 0, 0, 0⟩) ready).port 1).slots[0] =
    .filled ⟨7, 1, .badField, .overlap false⟩ 0 := by decide
/-- R8, R2: the first advertisement creates two nodes at indexes 1 and 2 and moves the counter. -/
theorem test_advertise_nodes :
    (after (.advertiseLink 1 7 ⟨key12, 1, 0, 0, 0, [], 0, 0, 0⟩) ready).nodes =
      [⟨1, 1, .remote, 1⟩, ⟨2, 2, .remote, 1⟩] := by decide
/-- R13: a stranger cannot withdraw. -/
theorem test_withdraw_stranger : ((after (.withdrawLink 2 7 key12) (withLink link12)).port 2).slots[0] =
    .filled ⟨7, 2, .notOwner, .empty⟩ 0 := by decide
/-- R13, R3: the last link's removal leaves the local node alone. -/
theorem test_withdraw_nodes : (after (.withdrawLink 1 7 key12) (withLink link12)).nodes = [⟨1, 0, .localNode, 0⟩] := by
  decide
/-- R49 check 1: no local node. -/
theorem test_path_not_ready : (((after (.pathRequest 1 7 ⟨3, 1, 2, 0, 1, 0, 0, 0, 0, 0, false, 0, 0, 0, 0, []⟩) ready).port 1).slots[0]
    == .filled ⟨7, 6, .notReady, .path (refusedResult 3)⟩ 0) = true := by decide
/-- R54, R57: a request over one link is admitted, and reports OK after two settling steps. -/
theorem test_path_found :
    (after .settlingStep (after .settlingStep
      (after (.pathRequest 1 7 ⟨3, 1, 2, 0, 1, 0, 0, 0, 0, 0, false, 0, 0, 0, 0, []⟩) (withLink link12)))).running = none := by
  decide
/-- R92: a hold expiry frees the index and keeps the sequence. -/
theorem test_hold_expiry : (after (.holdExpiry 0) (withCircuit heldCircuit)).circuit 0 = none ∧
    (after (.holdExpiry 0) (withCircuit heldCircuit)).sequence 0 = 1 := by decide
/-- R88: COMMIT. -/
theorem test_commit : (after (.commit 1 7 0 1) (withCircuit heldCircuit)).circuit 0 =
    some { heldCircuit with state := .lit, hold := none } := by decide
/-- R81: a stale handle. -/
theorem test_release_stale : ((after (.release 1 7 0 2) (withCircuit heldCircuit)).port 1).slots[0] =
    .filled ⟨7, 10, .noEntry, .empty⟩ 0 := by decide
/-- Section 9.6: DISCOVER without a local node is NOT_READY before the DISABLED test. -/
theorem test_discover_not_ready : ((after (.discover 0 7 2) ready).port 0).slots[0] =
    .filled ⟨7, 13, .notReady, .empty⟩ 0 := by decide
/-- R143: a drop at 255 wraps and is told. -/
theorem test_drop_wraps : ((after (.carrierChange 3 .absent)
    { onDegree { Degree.powerOn with carrier := .present, carrierDrops := 255 } with
      ports := Vector.replicate 4 { agentPort with subscription := 8 } }).port 0).notices.map (·.notice) =
    [.carrier 3 .absent, .counterWrap 3 .carrierDrops] := by decide
/-- Section 6.10, answer 5: the fifth error indication degrades the degree. -/
theorem test_fifth_error : ((after (.keepaliveAnswer 1 true 0) (onDegree { Degree.powerOn with
    state := .up, outstanding := some .keepalive, errorRun := 4 })).degree 1).state = .degraded := by decide
/-- R105, R145: DISCOVER on a dark UP degree with a loss-declare time of 0 tells the links' change before its own two. -/
theorem test_dark_discover : ((after (.discover 0 7 7) { withPair .up { Degree.powerOn with
      state := .up, installedPair := some pair12, config := { DegreeConfig.default with lossDeclare := 0 } } with
    ports := Vector.replicate 4 { agentPort with subscription := 128 } }).port 0).notices.map (·.notice) =
    [.linkChanged key12 .down .state, .linkChanged key21 .down .state, .degreeEvent 7 .up .probing .discover,
      .degreeEvent 7 .probing .lost .carrierLoss] := by decide +kernel
/-- R15, R20: a lifetime that runs out on a tick makes the record STALE with a grace of 60 s. -/
theorem test_tick_lifetime : (match step (withLink { link12 with lifetime := some 1 }) with
    | .next t => t.links.map fun r => (r.state, r.grace)
    | .fault _ | .refused _ => []) = [(.stale, some 60000)] := by decide +kernel
/-- R44: STRICT ends the request at a link of illegal noise. -/
theorem test_strict_aborts : (((after .settlingStep { withLink { link12 with noise := fig 1500 40, illegalNoise := true } with
    running := some { running [⟨1, 0, 0, 0, 0, 0, none⟩] [] with req := { request 8 3 0 with arithmetic := .strict } }
    ports := Vector.replicate 4 { agentPort with slots := (Vector.replicate 8 .free).set 0 (.reserved 8 6) } }).port 1).slots[0] ==
    .filled ⟨8, 6, .arithAbort, .path { refusedResult 3 with staleTopology := false }⟩ 0) = true := by decide +kernel
/-- Section 9.6: a silent memory leaves every port enabled and every degree DISABLED. -/
theorem test_silent_memory : (after (.configurationApplied []) State.reset).loadState = .ready ∧
    (after (.configurationApplied []) State.reset).portEnable = 15 ∧
    ((after (.configurationApplied []) State.reset).degree 2).state = .disabled := by decide

/-! ## Witnesses: a state and operands that meet the hypotheses of each statement, clause by clause -/

theorem heard_of {s : State} {a : AgentId} {k : SlotNo} (h : (s.port a).state = .active ∧ (s.port a).queue = [] ∧
    (s.port a).credits ≠ 0 ∧ (s.port a).freeSlot = some k) : Heard s a k :=
  ⟨h.1, h.2.1, h.2.2.1, h.2.2.2⟩

/-- With every agent as `agentPort`, each is heard in slot 0. -/
theorem heard {s : State} (a : AgentId) (h : s.ports = Vector.replicate 4 agentPort) : Heard s a 0 := by
  have hp : s.port a = agentPort := by simp [State.port, h]
  exact heard_of (by rw [hp]; decide +kernel)

/-- Only the last slot is free. -/
def lastSlot : State :=
  onPort { agentPort with slots := (Vector.replicate 8 (.reserved 1 6)).set 7 .free }

theorem heard_last (a : AgentId) : Heard lastSlot a 7 := by
  have hp : lastSlot.port a = { agentPort with slots := (Vector.replicate 8 (.reserved 1 6)).set 7 .free } := by
    simp [State.port, lastSlot, onPort]
  exact heard_of (by rw [hp]; decide +kernel)

/-- Every timer at 2 ms. -/
def timed : State :=
  { onDegree { Degree.powerOn with
      probeTimer := some 2, lossTimer := some 2, settleTimer := some 2, intervalTimer := some 2, holdDownTimer := some 2 } with
    links := [link12], circuits := Vector.replicate 64 (some { heldCircuit with hold := some 2 }) }

/-- A lifetime runs out within the next ms, and nothing else. -/
def ending : State := withLink { link12 with lifetime := some 1 }

theorem due_in_ending (j : Instr) : Due ending j ↔ j = .lifetimeExpiry 0 := by
  have hd : ∀ d, ending.degree d = .powerOn := by simp [ending, withLink, ready, State.degree, State.reset]
  have hc : ∀ c, ending.circuit c = none := by simp [ending, withLink, ready, State.circuit, State.reset]
  have hl : ∀ i r, ending.linkAt i = some r → i = 0 ∧ r = { link12 with lifetime := some 1 } := by
    intro i r h
    simp only [ending, withLink, State.linkAt, List.find?_cons, List.find?_nil] at h
    split at h
    · rename_i heq
      exact ⟨(of_decide_eq_true heq).symm, (Option.some.inj h).symm⟩
    · cases h
  constructor
  · intro h
    cases h with
    | hold c e h _ => simp [hc] at h
    | lifetime i r h _ => rw [show i = 0 from Fin.ext (hl _ _ h).1]
    | grace i r h h' =>
      obtain ⟨-, rfl⟩ := hl _ _ h
      obtain ⟨n, h', -⟩ := h'
      cases h'
    | probe d p h _ _ | keepalive d h _ => simp [hd, Degree.powerOn] at h
    | interval d h | loss d h | settle d h | holdDown d h => obtain ⟨n, h, -⟩ := h; simp [hd, Degree.powerOn] at h
  · rintro rfl
    exact .lifetime 0 { link12 with lifetime := some 1 } rfl ⟨1, rfl, Nat.le_refl 1⟩

theorem witness_EmptyQueuePassesOneMillisecond :
    (State.reset.pending = [] ∧ State.reset.loadState = .loading) ∧
    (let s := { State.reset with loadState := .resetFromLoading }; s.pending = [] ∧ s.loadState = .resetFromLoading) ∧
    timed.pending = [] ∧ timed.loadState = .ready ∧
    (∀ r ∈ timed.links, ∀ n, (r.lifetime = some n ∨ r.grace = some n) → 2 ≤ n) ∧
    (∀ c e n, timed.circuit c = some e → e.hold = some n → 2 ≤ n) ∧
    (∀ d n, ((timed.degree d).probeTimer = some n ∨ (timed.degree d).lossTimer = some n ∨
      (timed.degree d).settleTimer = some n ∨ (timed.degree d).intervalTimer = some n ∨
      (timed.degree d).holdDownTimer = some n) → 2 ≤ n) ∧
    { timed with loadState := .resetFromReady }.pending = [] ∧
    (StoreInv ending ∧ ending.pending = [] ∧ ending.loadState = .ready ∧ ∀ j, Due ending j ↔ j = .lifetimeExpiry 0) := by
  refine ⟨⟨rfl, rfl⟩, ⟨rfl, rfl⟩, rfl, rfl, ?_, ?_, ?_, rfl, storeInv_of_test (by decide +kernel), rfl, rfl, due_in_ending⟩
  · intro r hr n h
    simp only [timed, List.mem_singleton] at hr
    subst hr
    simp only [link12, Option.some.injEq, reduceCtorEq, or_false] at h
    omega
  · intro c e n hc hn
    simp only [State.circuit, timed, Fin.getElem_fin, Vector.getElem_replicate, Option.some.injEq] at hc
    subst hc
    simp only [Option.some.injEq] at hn
    omega
  · intro d n h
    simp only [State.degree, timed, onDegree, Fin.getElem_fin, Vector.getElem_replicate, Option.some.injEq, or_self] at h
    omega

theorem witness_CompareAgreesWithValues : figLegal (fig 2048 0) = true ∧ figLegal maxIf = true ∧
    figClass (fig 2048 0) = .legal 2048 0 ∧ figClass maxIf = .legal 4095 63 ∧ figClass 0 = .zero := by decide

theorem witness_AddErrsUpward :
    (figLegal maxIf = true ∧ (figAdd maxIf maxIf).2.overflow = true ∧ (figAdd maxIf 0).2.overflow = false) ∧
    figLegal (fig 1500 40) = false ∧ (figLegal 0 = true ∧ figLegal (fig 1500 40) = false) := by decide

theorem witness_ConversionArithmeticErrsUpward :
    (figLegal maxIf = true ∧ (figMult maxIf maxIf).2.overflow = true) ∧
    (figLegal (fig 2048 0) = true ∧ (figMult (fig 2048 0) (fig 2048 0)).2.underflow = true) ∧
    ((figMult maxIf (fig 2048 48)).2.overflow = false ∧ (figMult maxIf (fig 2048 48)).2.underflow = false) ∧
    16777215 < 2 ^ 24 ∧ 65535 < 2 ^ 16 ∧ 4095 < 4096 := by decide

theorem witness_ConversionKeepsFirstIllegalReport :
    (let y : SiteRecord := ⟨1, 1, 0xFFFFFF, fig 2048 40, false⟩
     let x : SiteRecord := ⟨2, 1, 1, fig 1500 40, false⟩
     Profile.perkm ≠ .linear24 ∧ (∀ z ∈ [y], figLegal z.raw = true) ∧ figLegal x.raw = false ∧
     (∀ z ∈ [y, ⟨2, 1, 1, maxIf, false⟩], figLegal z.raw = true) ∧ 16777215 < ([y, x].map fun z => z.delay.toNat).sum) := by decide

theorem witness_NoticesPassFilterAndJoinTheQueue :
    (let n : Notice := .linkChanged key12 .up .created
     let w : QueuedNotice := ⟨n, 0, 0⟩
     (Port.powerOn.state ≠ .active) ∧
     ({ agentPort with filter := [⟨9, 0xFFFFFFFF⟩] }.wants n = false) ∧
     (let x := { agentPort with notices := List.replicate 16 w }
      x.state = .active ∧ x.wants n = true ∧ 16 ≤ x.notices.length) ∧
     (let x := { agentPort with notices := List.replicate 15 w }
      x.state = .active ∧ x.wants n = true ∧ x.notices.length < 16)) := by decide +kernel

theorem witness_SetFilterReplacesFilterAndMask :
    Heard ready 3 0 ∧ Heard lastSlot 0 7 ∧ (List.replicate 255 (⟨0, 0⟩ : FilterEntry)).length ≤ 255 ∧
    4 < (List.replicate 5 (⟨0, 0⟩ : FilterEntry)).length ∧ ¬ 4 < (List.replicate 4 (⟨0, 0⟩ : FilterEntry)).length :=
  ⟨heard 3 rfl, heard_last 0, by decide +kernel, by decide, by decide⟩

def initPort : Port := { Port.powerOn with state := .init, linkUp := true, linkFrames := [.init .opening 0] }

theorem witness_InitAcceptedOrRejected :
    PortInv (onPort initPort) ∧ ((onPort initPort).port 3).state = .init ∧ (0 : Byte) ≠ 1 ∧ (0 : Byte) ≠ 2 ∧
    (1 : Byte) = 1 ∧ (2 : Byte) = 2 :=
  ⟨portInv_of_test (by decide +kernel), by decide, by decide, by decide, rfl, rfl⟩

def litCircuit : Circuit := { heldCircuit with state := .lit, hold := none }

theorem witness_PortResetLeavesNothingOfTheAgent :
    StoreInv (withCircuit litCircuit) ∧ ((withCircuit litCircuit).port 1).state = .active ∧ PortState.down ≠ .active ∧
    (withCircuit litCircuit).circuit 0 = some litCircuit ∧ litCircuit.state = .lit ∧
    (withCircuit { heldCircuit with owner := 0 }).circuit 0 = some { heldCircuit with owner := 0 } ∧
    StoreInv (withCircuit { heldCircuit with owner := 0 }) ∧
    (withCircuit litCircuit).links = [{ link12 with channels := usedMap }] ∧ link12.owner = .agent 1 ∧ link12.state ≠ .stale ∧
    (let r := { link12 with state := .stale, lifetime := none, grace := some 1 }
     StoreInv (withLink r) ∧ ((withLink r).port 1).state = .active ∧ r ∈ (withLink r).links ∧ r.removalDeferred = false) ∧
    (let run := running [⟨1, 0, 0, 0, 0, 0, none⟩] []
     let s := { withCircuit heldCircuit with
       running := some run, links := [{ link12 with channels := usedMap.set 0 (.held 0), removalDeferred := true }] }
     StoreInv s ∧ (s.port 1).state = .active ∧ s.running = some run ∧ run.port = 1 ∧ run.port ≠ 0 ∧
      s.circuit 0 = some heldCircuit ∧ heldCircuit.state = .held ∧ heldCircuit.owner = 1) :=
  ⟨storeInv_of_test (by decide +kernel), by decide, by decide, by decide, rfl, by decide, storeInv_of_test (by decide +kernel),
    rfl, rfl, by decide, ⟨storeInv_of_test (by decide +kernel), by decide⟩, storeInv_of_test (by decide +kernel), by decide⟩

/-- R162, R14, R18: the reset removes the deferred link of the HELD circuit, with REMOVED for another port and one count. -/
theorem test_port_reset_removes :
    (let s := { withCircuit heldCircuit with
       links := [{ link12 with channels := usedMap.set 0 (.held 0), removalDeferred := true }] }
     let t := portReset 1 .init s
     t.links = [] ∧ t.generation = 1 ∧ (t.port 0).notices = [⟨.linkChanged key12 .up .removed, 0, 0⟩]) := by decide +kernel

theorem witness_LinkStatusMovesThePort :
    (PortInv (onPort .powerOn) ∧ ((onPort .powerOn).port 0).state = .down ∧ (onPort .powerOn).portEnable.getLsbD 0 = true ∧
      (onPort .powerOn).loadState = .ready) ∧
    (PortInv { onPort .powerOn with portEnable := 14 } ∧ ((14 : BitVec 4).getLsbD 0 = false)) ∧
    (PortInv (onPort initPort) ∧ ((onPort initPort).port 0).state = .init) ∧
    (PortInv ready ∧ (ready.port 0).state = .active) :=
  ⟨⟨portInv_of_test (by decide +kernel), by decide, by decide, rfl⟩, ⟨portInv_of_test (by decide +kernel), by decide⟩,
    ⟨portInv_of_test (by decide +kernel), by decide⟩, portInv_of_test (by decide +kernel), by decide⟩

theorem witness_CreditAndCommandFramesAreTaken :
    (let s := onPort { agentPort with responseCredit := .limited 255, credits := 0 }
     (s.port 1).state = .active ∧ (s.port 1).responseCredit = .limited 255 ∧ (s.port 1).credits = 0) ∧
    ((ready.port 1).state = .active ∧ (ready.port 1).responseCredit = .unlimited) ∧
    (((onPort initPort).port 1).state = .init ∧ ((onPort .powerOn).port 1).state = .down) ∧
    (List.replicate 3200 (0 : Byte)).length ≤ 3200 ∧
    (let s := onPort { agentPort with slots := Vector.replicate 8 (.reserved 1 6), credits := 1 }
     (s.port 1).credits ≠ 0 ∧ (s.port 1).freeSlot = none) ∧
    (Heard lastSlot 1 7 ∧ judgeBody [1, 7, 99, 0] = .malformed 0x0107 99) :=
  ⟨by decide, by decide, by decide, by decide +kernel, by decide, heard_last 1, by decide⟩

theorem witness_FrameCheckIsExactAndCounted :
    ([] : List Byte).length ≤ 3200 ∧ (List.replicate 3200 (0 : Byte)).length ≤ 3200 ∧ ([1, 0, 0, 0, 0] : List Byte).length ≠ 4 ∧
    (∀ i : Fin 8, (1 : DegreeMask).getLsbD i = (128 : Byte).getLsbD (7 - i)) ∧
    judgeFrame (agentFrame 1 [1, 0, 128, 0]) = .init 1 0 1 ∧ judgeFrame (agentFrame 2 [4, 0, 0, 0]) = .credit 4 ∧
    judgeFrame (agentFrame 2 [4, 0, 0, 0]) ≠ .bad ∧ judgeFrame [1, 0, 0, 0] = .bad ∧
    judgeFrame (agentFrame 1 [1, 0, 128, 1]) = .bad ∧ judgeFrame (agentFrame 4 []) = .bad := by decide +kernel

def queueing (x : List QueuedCommand) : State :=
  onPort { agentPort with credits := 8 - x.length, queue := x, slots := (Vector.replicate 8 (.reserved 1 6)).set 7 .free }

theorem witness_TakePassesTheHeadToItsOwner :
    (let c : QueuedCommand := .wellFormed 9 (.queryCircuit 63)
     let s := queueing [c, c]
     (s.port 1).state = .active ∧ (s.port 1).queue = c :: [c] ∧ (s.port 1).freeSlot = some 7 ∧
      (AgentCommand.queryCircuit 63).wellFormed = true) ∧
    (let s := queueing [.malformed 9 99]
     (s.port 1).state = .active ∧ (s.port 1).queue = .malformed 9 99 :: [] ∧ (s.port 1).freeSlot = some 7) ∧
    Heard ready 1 0 ∧ (AgentCommand.queryCircuit 63).wellFormed = true ∧
    ((onPort initPort).port 1).state ≠ .active ∧ (ready.port 1).queue = [] ∧
    ((onPort { agentPort with slots := Vector.replicate 8 (.reserved 1 6) }).port 1).freeSlot = none :=
  ⟨by decide +kernel, by decide +kernel, heard 1 rfl, by decide +kernel⟩

def anAnswer : Response := ⟨7, 5, .ok, .empty⟩
def aNotice : Notice := .carrier 7 .absent

/-- A response of moment 4 in slot 7 and a notice of moment 5. -/
def responseFirst : Port :=
  { agentPort with
    slots := (Vector.replicate 8 .free).set 7 (.filled anAnswer 4), notices := [⟨aNotice, 0, 5⟩], responseCredit := .limited 1 }

theorem filled_of (j : SlotNo) (r : Response) (m : Nat)
    (h : ((onPort responseFirst).port 1).slots[j] = .filled r m) : j = 7 ∧ m = 4 := by
  have hs : ((onPort responseFirst).port 1).slots = (Vector.replicate 8 .free).set 7 (.filled anAnswer 4) := rfl
  rw [hs] at h
  by_cases hj : j = 7
  · subst hj
    simp only [Fin.getElem_fin, show ((7 : SlotNo) : Nat) = 7 from rfl, Vector.getElem_set_self, Slot.filled.injEq] at h
    exact ⟨rfl, h.2.symm⟩
  · have : (7 : Nat) ≠ (j : Nat) := fun e => hj (Fin.ext e.symm)
    simp [this] at h

/-- Every slot filled, and a command waiting. -/
def fullPort : Port :=
  { agentPort with
    credits := 7, queue := [.wellFormed 9 (.queryCircuit 64)]
    slots := Vector.ofFn fun k => .filled ⟨BitVec.ofNat 16 k, 5, .ok, .empty⟩ k, moment := 8 }

/-- R154, R156: the SEND that frees a slot takes the command that waits, which is answered there. -/
theorem test_send_takes_waiting :
    (let t := (after (.send 1) (onPort fullPort)).port 1
     t.queue = [] ∧ t.credits = 8 ∧ t.linkFrames = [.credit] ∧
      t.slots[(0 : SlotNo)] = .filled ⟨9, 11, .badField, .empty⟩ 8) := by decide +kernel

theorem witness_SendTakesTheOldestFrame :
    (((onPort initPort).port 1).queue = [] ∧ ((onPort initPort).port 1).state ≠ .down ∧
      ((onPort initPort).port 1).linkFrames = .init .opening 0 :: []) ∧
    (((onPort responseFirst).port 1).queue = [] ∧ ((onPort responseFirst).port 1).state = .active ∧
      ((onPort responseFirst).port 1).linkFrames = [] ∧ ((onPort responseFirst).port 1).hasCredit = true ∧
      ((onPort responseFirst).port 1).slots[7] = .filled anAnswer 4 ∧
      (∀ (j : SlotNo) (r : Response) (m : Nat), j ≠ 7 → ((onPort responseFirst).port 1).slots[j] = .filled r m → 4 < m) ∧
      (∀ n ∈ ((onPort responseFirst).port 1).notices, 4 < n.moment)) ∧
    (let s := onPort { responseFirst with notices := [⟨aNotice, 0, 3⟩] }
     (s.port 1).hasCredit = true ∧ (s.port 1).notices = ⟨aNotice, 0, 3⟩ :: [] ∧
      ∀ (j : SlotNo) (r : Response) (m : Nat), (s.port 1).slots[j] = .filled r m → 3 < m) ∧
    (let s := onPort fullPort
     (s.port 1).queue ≠ [] ∧ (s.port 1).state = .active ∧ (s.port 1).linkFrames = [] ∧ (s.port 1).hasCredit = true ∧
      (s.port 1).slots[0] = .filled ⟨0, 5, .ok, .empty⟩ 0 ∧
      (∀ (j : SlotNo) (r : Response) (m : Nat), j ≠ 0 → (s.port 1).slots[j] = .filled r m → 0 < m) ∧
      ∀ n ∈ (s.port 1).notices, 0 < n.moment) ∧
    (let s := onPort { responseFirst with responseCredit := .limited 0 }
     (s.port 1).linkFrames = [] ∧ (s.port 1).hasCredit = false) ∧
    (((onPort .powerOn).port 1).state = .down ∧ ((onPort .powerOn).port 1).linkFrames = [] ∧
      ((onPort .powerOn).port 1).state ≠ .active) := by
  refine ⟨by decide, ⟨by decide, by decide, by decide, by decide, by decide, ?_, by decide⟩, ⟨by decide, by decide, ?_⟩,
    ⟨by decide, by decide, by decide, by decide, by decide +kernel, ?_, by decide⟩, by decide, by decide⟩
  · intro j r m hj h
    exact absurd (filled_of j r m h).1 hj
  · intro j r m h
    have := (filled_of j r m h).2
    omega
  · intro j r m hj h
    have hs : ((onPort fullPort).port 1).slots[j] = .filled ⟨BitVec.ofNat 16 j, 5, .ok, .empty⟩ j := by
      simp [onPort, State.port, fullPort]
    rw [hs] at h
    have hm : (j : Nat) = m := by injection h
    have : (j : Nat) ≠ 0 := fun e => hj (Fin.ext e)
    omega

/-! Topology store. -/

/-- An advertisement under a key. -/
def advert (k : LinkKey) (st : Byte) : AdvertiseParams := ⟨k, st, 5, 6, fig 2048 40, [1, 2, 3, 4], 7, 1, 0⟩

theorem advertisable (k : LinkKey) (hk : k.fromNode ≠ 0 ∧ k.toNode ≠ 0 ∧ k.fromNode ≠ k.toNode) :
    Advertisable (advert k 1) .up := ⟨.inl ⟨rfl, rfl⟩, hk, show _ ∧ _ ∧ _ from ⟨Nat.le_refl 4, by simp [advert], by simp [advert]⟩⟩

theorem no_link_in_ready (key : LinkKey) : ready.linkByKey key = none := rfl

theorem witness_AdvertiseCreatesLink :
    (Heard ready 1 0 ∧ StoreInv ready ∧ Advertisable (advert key12 1) .up ∧ ready.linkByKey key12 = none ∧
      (∀ r ∈ ready.links, r.index ≠ 0) ∧ (∀ j, j < 0 → ∃ r ∈ ready.links, r.index = j) ∧
      (ready.unknownNodes [1, 2]).length ≤ ready.freeNodes) ∧
    (let s := withLink link12
     Heard s 1 0 ∧ StoreInv s ∧ Advertisable (advert ⟨2, 3, 0⟩ 1) .up ∧ s.linkByKey ⟨2, 3, 0⟩ = none ∧
      (∀ r ∈ s.links, r.index ≠ 1) ∧ (∀ j, j < 1 → ∃ r ∈ s.links, r.index = j) ∧
      (s.unknownNodes [2, 3]).length ≤ s.freeNodes) :=
  ⟨⟨heard 1 rfl, storeInv_of_test (by decide +kernel), advertisable _ (by decide), rfl, by decide,
      fun j h => absurd h (Nat.not_lt_zero j), by decide⟩,
    heard 1 rfl, storeInv_of_test (by decide +kernel), advertisable _ (by decide), by decide, by decide, by decide, by decide⟩

def stale12 : LinkRecord := { link12 with owner := .agent 0, state := .stale, lifetime := none, grace := some 1, removalDeferred := true }

theorem witness_AdvertiseReplacesLink :
    (Heard (withLink link12) 1 0 ∧ (withLink link12).linkByKey key12 = some link12 ∧ link12.owner = .agent 1) ∧
    (Heard (withLink stale12) 1 0 ∧ (withLink stale12).linkByKey key12 = some stale12 ∧ stale12.owner = .agent 0 ∧
      stale12.state = .stale) ∧ Advertisable (advert key12 1) .up :=
  ⟨⟨heard 1 rfl, rfl, rfl⟩, ⟨heard 1 rfl, rfl, rfl, rfl⟩, advertisable _ (by decide)⟩

/-- Every link index is taken. -/
def manyLinks (n : Nat) : List LinkRecord :=
  (List.range n).map fun i => { link12 with index := i, key := ⟨1, 2, BitVec.ofNat 8 i⟩ }

def fullLinks : State := { withLink link12 with links := manyLinks 1024 }

theorem manyLinks_taken {n : Nat} (i : Nat) (h : i < n) : ∃ r ∈ manyLinks n, r.index = i :=
  ⟨_, List.mem_map.mpr ⟨i, List.mem_range.mpr h, rfl⟩, rfl⟩

/-- Every index of a REMOTE node is taken. -/
def fullNodes : State :=
  { ready with localId := 999, nodes := (List.range 256).map fun i =>
      if i = 0 then ⟨999, 0, .localNode, 0⟩ else ⟨1000 + BitVec.ofNat 32 i, i, .remote, 1⟩ }

theorem fullLinks_taken : ∀ i, i < 1024 → ∃ r ∈ fullLinks.links, r.index = i := by
  simp only [fullLinks]
  exact fun i h => manyLinks_taken i h

theorem fullLinks_room : fullLinks.linkByKey ⟨2, 3, 0⟩ = none := by decide +kernel

theorem fullNodes_room : fullNodes.freeNodes < (fullNodes.unknownNodes [1, 2]).length := by decide +kernel

theorem witness_AdvertiseRefusedChangesNothing :
    (Heard ready 1 0 ∧ (∀ st, ¬ Advertisable (advert ⟨1, 1, 0⟩ 1) st) ∧ (∀ st, ¬ Advertisable (advert key12 5) st) ∧
      (advert key12 5).srlg.length ≤ 255) ∧
    (Heard (withLink link12) 0 0 ∧ Advertisable (advert key12 1) .up ∧ (withLink link12).linkByKey key12 = some link12 ∧
      link12.owner ≠ .agent 0 ∧ link12.state ≠ .stale) ∧
    (let r := found key12 0 .up
     (withLink r).linkByKey key12 = some r ∧ r.owner ≠ .agent 0 ∧ r.owner = .discovery) :=
  ⟨⟨heard 1 rfl, fun _ h => h.key.2.2 rfl, fun _ h => by rcases h.state with h | h | h <;> exact absurd h.1 (by decide), by decide⟩,
    ⟨heard 0 rfl, advertisable _ (by decide), rfl, by decide, by decide⟩, rfl, by decide, rfl⟩

theorem witness_AdvertiseRefusedWithoutRoom :
    (Heard fullLinks 1 0 ∧ Advertisable (advert ⟨2, 3, 0⟩ 1) .up ∧ fullLinks.linkByKey ⟨2, 3, 0⟩ = none ∧
      ∀ i, i < 1024 → ∃ r ∈ fullLinks.links, r.index = i) ∧
    (Heard fullNodes 1 0 ∧ fullNodes.linkByKey key12 = none ∧
      fullNodes.freeNodes < (fullNodes.unknownNodes [1, 2]).length) :=
  ⟨⟨heard 1 rfl, advertisable _ (by decide), fullLinks_room, fullLinks_taken⟩, heard 1 rfl, rfl, fullNodes_room⟩

theorem witness_LinkChangeIsCountedAndToldOnce :
    ({ link12 with owner := .discovery }.owner ≠ link12.owner) ∧
    (stale12.owner = { stale12 with state := .up }.owner ∧ stale12.state = .stale ∧ { stale12 with state := .up }.state ≠ .stale) ∧
    (let new := { link12 with cost := 4 }
     new.owner = link12.owner ∧ new.state ≠ .stale ∧ new.cost ≠ link12.cost) ∧
    (let new := { link12 with state := .down }
     new.owner = link12.owner ∧ new.state ≠ .stale ∧ new.cost = link12.cost ∧ new.delay = link12.delay ∧
      new.noise = link12.noise ∧ new.srlg = link12.srlg ∧ new.capability = link12.capability ∧ new.state ≠ link12.state) ∧
    (let new := { link12 with channels := (Vector.replicate 96 SlotState.free).set 95 .foreign }
     new.owner = link12.owner ∧ new.state = link12.state ∧ new.cost = link12.cost ∧
      ∃ i : Fin 96, ¬ (link12.channels[i] = .foreign ↔ new.channels[i] = .foreign)) ∧
    (let new := { link12 with lifetime := some 9, channels := usedMap }
     new.owner = link12.owner ∧ new.state = link12.state ∧ new.cost = link12.cost ∧ new.delay = link12.delay ∧
      new.noise = link12.noise ∧ new.srlg = link12.srlg ∧ new.capability = link12.capability ∧
      ∀ i : Fin 96, link12.channels[i] = .foreign ↔ new.channels[i] = .foreign) ∧
    ((withPair .up .powerOn).linkByKey key12 = some (found key12 0 .up) ∧ (found key12 0 .up).owner = .discovery) ∧
    (ready.linkByKey key12 = none) := by decide +kernel

theorem not_owned_of {s : State} {key : LinkKey} {r : LinkRecord} (h : s.linkByKey key = some r) (ho : r.owner ≠ .discovery) :
    ∀ x, s.linkByKey key = some x → x.owner ≠ .discovery := by
  intro x hx
  rw [h] at hx
  cases hx
  exact ho

def used12 : LinkRecord := { link12 with channels := (Vector.replicate 96 SlotState.free).set 95 (.held 0) }

theorem witness_WithdrawRemovesLinkNotInUse :
    (Heard ready 1 0 ∧ ready.linkByKey key12 = none) ∧
    (Heard (withLink link12) 0 0 ∧ (withLink link12).linkByKey key12 = some link12 ∧ link12.owner ≠ .agent 0) ∧
    (Heard (withLink used12) 1 0 ∧ (withLink used12).linkByKey key12 = some used12 ∧ used12.owner = .agent 1 ∧
      used12.channels[95].used = true) ∧
    (Heard (withLink link12) 1 0 ∧ StoreInv (withLink link12) ∧ link12.owner = .agent 1 ∧
      ∀ i : Fin 96, link12.channels[i].used = false) :=
  ⟨⟨heard 1 rfl, rfl⟩, ⟨heard 0 rfl, rfl, by decide⟩, ⟨heard 1 rfl, rfl, rfl, by decide⟩,
    heard 1 rfl, storeInv_of_test (by decide +kernel), rfl, by decide⟩

theorem witness_ListLinksWalksTheTable :
    Heard (withPair .up .powerOn) 2 0 ∧ linksRising (withPair .up .powerOn).links ∧ 1024 ≤ (1024 : BitVec 16).toNat ∧
    (1023 : BitVec 16).toNat < 1024 :=
  ⟨heard 2 rfl, by unfold linksRising; decide, by decide, by decide⟩

/-- Two REMOTE nodes and a link, no local node. -/
def unnamed : State :=
  { ready with nodes := [⟨1, 1, .remote, 1⟩, ⟨2, 255, .remote, 1⟩], links := [link12] }

theorem witness_SetLocalPlacesTheLocalNode :
    (Heard (withLink link12) 1 0 ∧ StoreInv (withLink link12) ∧ (withLink link12).localId ≠ 0) ∧
    (Heard unnamed 1 0 ∧ StoreInv unnamed ∧ unnamed.localId = 0 ∧ (9 : NodeId) ≠ 0 ∧ unnamed.nodeById 9 = none ∧
      unnamed.nodeById 2 = some ⟨2, 255, .remote, 1⟩ ∧ (2 : NodeId) ≠ 0) :=
  ⟨⟨heard 1 rfl, storeInv_of_test (by decide +kernel), by decide⟩, heard 1 rfl, storeInv_of_test (by decide +kernel), rfl,
    by decide, rfl, rfl, by decide⟩

def last12 : LinkRecord := { link12 with index := 1023 }
def graced (m : ChannelMap) : LinkRecord :=
  { link12 with index := 1023, state := .stale, lifetime := none, grace := some 1, channels := m }

theorem witness_LinkAgeing :
    (StoreInv (withLink last12) ∧ (withLink last12).linkAt ((1023 : Fin 1024) : Nat) = some last12 ∧
      last12.lifetime.isSome = true ∧ last12.grace = none) ∧
    (let r := graced usedMap
     StoreInv (withLink r) ∧ (withLink r).linkAt ((1023 : Fin 1024) : Nat) = some r ∧ r.grace.isSome = true ∧
      (∃ j : Fin 96, r.channels[j].used = true) ∧ r.lifetime = none) ∧
    (let r := graced (Vector.replicate 96 .free)
     StoreInv (withLink r) ∧ (withLink r).linkAt ((1023 : Fin 1024) : Nat) = some r ∧ r.grace.isSome = true ∧
      (∀ j : Fin 96, r.channels[j].used = false)) ∧
    (withLink last12).linkAt ((0 : Fin 1024) : Nat) = none :=
  ⟨⟨storeInv_of_test (by decide +kernel), rfl, rfl, rfl⟩, ⟨storeInv_of_test (by decide +kernel), rfl, rfl, by decide +kernel, rfl⟩,
    ⟨storeInv_of_test (by decide +kernel), rfl, rfl, by decide +kernel⟩, by decide +kernel⟩

/-! Path engine. -/

theorem witness_SetClassWritesTheClass :
    Heard ready 1 0 ∧ Heard lastSlot 1 7 ∧ 7 < (8 : Byte).toNat ∧ figLegal (fig 1500 40) = false ∧
    (7 : Byte).toNat = ((7 : Fin 8) : Nat) ∧ figLegal maxIf = true :=
  ⟨heard 1 rfl, heard_last 1, by decide, by decide, rfl, by decide⟩

/-- A request from node 1 to node 2 on channel 0. -/
def plainPath : PathParams := ⟨3, 1, 2, 0, 1, 0, 0, 0, 0, 0, false, 0, 0, 0, 0, []⟩

/-- Agent 1 has this record RUNNING and these QUEUED, each with its slot. -/
def waiting (q : List Request) (run : Running) : State :=
  { withLink link12 with
    running := some run, queued := (Vector.replicate 4 []).set 1 q
    ports := Vector.replicate 4 { agentPort with
      slots := (Vector.replicate 8 .free).set 0 (.reserved 8 6) |>.set 1 (.reserved 9 6) |>.set 2 (.reserved 10 6)
        |>.set 3 (.reserved 11 6) } }

def busyList : State :=
  waiting [request 9 4 1, request 10 5 2, request 11 6 3] (running [⟨1, 0, 0, 0, 0, 0, none⟩] [])

theorem heard_waiting (q : List Request) (run : Running) (a : AgentId) : Heard (waiting q run) a 4 := by
  refine heard_of ?_
  have hp : (waiting q run).port a = { agentPort with
      slots := (Vector.replicate 8 .free).set 0 (.reserved 8 6) |>.set 1 (.reserved 9 6) |>.set 2 (.reserved 10 6)
        |>.set 3 (.reserved 11 6) } := by simp [State.port, waiting]
  rw [hp]
  decide +kernel

/-- The answer to a PATH REQUEST refused with `code`. -/
def refusedAs (s : State) (a : AgentId) (k : SlotNo) (p : PathParams) (code : Completion) : Prop :=
  exec (.pathRequest a 7 p) s = .next (replied a k ⟨7, 6, code, .path
    { tag := p.tag, staleTopology := false, overflow := false, illegalSkipped := false, retries := 0, working := none
      protection := none, handles := [] }⟩ s)

/-- Each of the eleven checks is the first that fails of some request. -/
theorem witness_PathRequestRefusedByFirstCheck (h : Obligations.PathRequestRefusedByFirstCheck) :
    refusedAs ready 1 0 plainPath .notReady ∧
    refusedAs (withLink link12) 1 0 { plainPath with cls := 8 } .badField ∧
    refusedAs (withLink link12) 1 0 { plainPath with policy := 2 } .badField ∧
    refusedAs (withLink link12) 1 0 { plainPath with exclusions := List.replicate 9 (.srlg 1) } .badField ∧
    refusedAs (withLink link12) 1 0 { plainPath with channel := 96 } .badField ∧
    refusedAs (withLink link12) 1 0 { plainPath with destination := 1 } .badField ∧
    refusedAs (withLink link12) 1 0 { plainPath with exclusions := [.srlg 0] } .badField ∧
    refusedAs (withLink link12) 1 0 { plainPath with exclusions := [.node 2] } .badField ∧
    refusedAs (withLink link12) 1 0 { plainPath with destination := 9 } .noEntry ∧
    refusedAs busyList 1 4 plainPath .duplicateTag ∧
    refusedAs busyList 1 4 { plainPath with tag := 7 } .busy := by
  have hr : PortInv ready := portInv_of_test (by decide +kernel)
  have hl : PortInv (withLink link12) := portInv_of_test (by decide +kernel)
  have hb : PortInv busyList := portInv_of_test (by decide +kernel)
  have w : Heard (withLink link12) 1 0 := heard 1 rfl
  have b : Heard busyList 1 4 := heard_waiting _ _ 1
  exact ⟨h _ 1 0 7 _ _ (heard 1 rfl) hr rfl (by decide +kernel), h _ 1 0 7 _ _ w hl rfl (by decide +kernel),
    h _ 1 0 7 _ _ w hl rfl (by decide +kernel), h _ 1 0 7 _ _ w hl rfl (by decide +kernel),
    h _ 1 0 7 _ _ w hl rfl (by decide +kernel), h _ 1 0 7 _ _ w hl rfl (by decide +kernel),
    h _ 1 0 7 _ _ w hl rfl (by decide +kernel), h _ 1 0 7 _ _ w hl rfl (by decide +kernel),
    h _ 1 0 7 _ _ w hl rfl (by decide +kernel), h _ 1 4 7 _ _ b hb rfl (by decide +kernel),
    h _ 1 4 7 _ _ b hb rfl (by decide +kernel)⟩

theorem witness_PathRequestAdmitted :
    (Heard (withLink link12) 1 0 ∧ (AgentCommand.pathRequest plainPath).wellFormed = true ∧
      (∀ c ∈ admissionChecks (withLink link12) 1 plainPath, c.1 = false) ∧ plainPath.cls.toNat = ((0 : Fin 8) : Nat) ∧
      ((withLink link12).port 1).grid = some .g50 ∧ (withLink link12).running = none ∧
      ∀ x, (withLink link12).queuedOf x = []) ∧
    (let s := waiting [request 9 4 1, request 10 5 2] (running [⟨1, 0, 0, 0, 0, 0, none⟩] [])
     let p := { plainPath with tag := 7, cls := 7 }
     Heard s 1 4 ∧ (AgentCommand.pathRequest p).wellFormed = true ∧ (∀ c ∈ admissionChecks s 1 p, c.1 = false) ∧
      p.cls.toNat = ((7 : Fin 8) : Nat) ∧ (s.port 1).grid = some .g50 ∧
      s.running = some (running [⟨1, 0, 0, 0, 0, 0, none⟩] [])) ∧
    (let s := { withLink link12 with ports := Vector.replicate 4 { agentPort with grid := some .g100 } }
     (∀ c ∈ admissionChecks s 1 { plainPath with channel := 47 }, c.1 = false) ∧ (s.port 1).grid = some .g100) :=
  ⟨⟨heard 1 rfl, rfl, by decide +kernel, rfl, rfl, rfl, by decide⟩,
    ⟨heard_waiting _ _ 1, by decide, by decide +kernel, rfl, rfl, rfl⟩, by decide +kernel, rfl⟩

theorem witness_PathCancelEndsTheRequest :
    Heard busyList 1 4 ∧ EngineInv busyList ∧ (∀ q ∈ busyList.pendingList 1, q.tag ≠ 7) ∧
    (request 11 6 3 ∈ busyList.queuedOf 1 ∧ (request 11 6 3).tag = 6) ∧
    (let run := running [⟨1, 0, 0, 0, 0, 0, none⟩] []
     busyList.running = some run ∧ run.port = 1 ∧ run.req.tag = 3) :=
  ⟨heard_waiting _ _ 1, engineInv_of_test (by decide +kernel), by decide, ⟨by decide, rfl⟩, rfl, rfl, rfl⟩

theorem witness_ArbiterServesInRotation :
    (busyList.running ≠ none ∧ ∀ p, ready.queuedOf p = []) ∧
    (let s := { withLink link12 with lastServed := 1, queued := (Vector.replicate 4 []).set 1 [request 9 4 1] }
     s.running = none ∧ [s.lastServed + 1, s.lastServed + 2, s.lastServed + 3, s.lastServed] = [2, 3, 0] ++ 1 :: [] ∧
      (∀ x ∈ ([2, 3, 0] : List AgentId), s.queuedOf x = []) ∧ s.queuedOf 1 = request 9 4 1 :: [] ∧
      s.nodeById (request 9 4 1).source ≠ none ∧ s.nodeById (request 9 4 1).destination ≠ none ∧
      1 ≤ (request 9 4 1).width) ∧
    (let s := { ready with lastServed := 0, queued := (Vector.replicate 4 []).set 1 [request 9 4 1] }
     s.running = none ∧ [s.lastServed + 1, s.lastServed + 2, s.lastServed + 3, s.lastServed] = [] ++ 1 :: [2, 3, 0] ∧
      s.queuedOf 1 = request 9 4 1 :: [] ∧ s.nodeById (request 9 4 1).source = none ∧
      (request 9 4 1).captured = none) := by decide +kernel

def label1 : Label := ⟨1, 0, 0, 0, 0, 0, none⟩
def label2 : Label := ⟨2, 1, 3, 1, 0, 7, some ⟨1, 0, ⟨0, key12, []⟩⟩⟩

theorem witness_FrontierKeepsTheCheapestLabel :
    ((∀ y ∈ List.replicate 255 label1, y.node ≠ label2.node) ∧ (List.replicate 255 label1).length < 256 ∧
      256 ≤ (List.replicate 256 label1).length) ∧
    ([label1] = [] ++ label1 :: [] ∧ label1.node = { label1 with cost := 1 }.node ∧ (∀ z ∈ ([] : List Label) ++ [], z.node ≠ 1) ∧
      label1.cost < { label1 with cost := 1 }.cost ∧ label1.hops < { label1 with hops := 1 }.hops) := by decide +kernel

/-- The search of `running` under STRICT. -/
def strictRun : Running := { running [label1] [] with req := { (running [] []).req with arithmetic := .strict } }

theorem witness_SettlingStepRelaxesUsableLinks :
    leastLabel [{ label1 with index := 3 }, { label1 with cost := 1 }, label1] = some label1 ∧
    (let s := { withLink link12 with running := some (running [label1] []) }
     let run := running [label1] []
     s.running = some run ∧ run.frontier ≠ [] ∧ run.req.arithmetic = .tolerant ∧ linksRising s.links ∧
      (run.frontier.map (·.node)).Nodup ∧ run.settled.length + 1 < 256 ∧ label1.node ≠ run.req.destination ∧
      link12 ∈ s.links ∧ link12.key.fromNode = label1.node ∧ (∀ y ∈ label1 :: run.settled, y.node ≠ link12.key.toNode) ∧
      PlainUsable run link12 ∧ Extends run.req label1 link12 label2 ∧ run.frontier.length + s.links.length ≤ 256) ∧
    (running [label1] (List.replicate 254 label1)).settled.length + 1 < 256 ∧
    (let r := { link12 with noise := fig 1500 40, illegalNoise := true }
     let s := { withLink r with running := some strictRun }
     s.running = some strictRun ∧ strictRun.req.arithmetic = .strict ∧ Relaxed s strictRun label1 r ∧ r.illegalNoise = true) ∧
    (let r := { link12 with noise := maxIf }
     let l := { label1 with noise := maxIf }
     Overflows strictRun.req l r) ∧
    (let s := { withLink link12 with running := some strictRun }
     ∀ r, Relaxed s strictRun label1 r → r.illegalNoise = false ∧ ¬ Overflows strictRun.req label1 r) := by
  have plain : ∀ (run : Running) (r : LinkRecord), run.req = strictRun.req ∨ run.req = (running [] []).req →
      run.protecting = none → run.candidate = 0 →
      r.state = .up → r.capability = BitVec.allOnes 96 → r.channels = Vector.replicate 96 .free → PlainUsable run r := by
    intro run r hq hp hc hs hb hm
    have hx : run.req.exclusions = [] ∧ run.req.width = 1 := by rcases hq with h | h <;> rw [h] <;> exact ⟨rfl, rfl⟩
    refine ⟨.inl hs, fun e he => ?_, fun w hw => ?_, fun w hw => ?_, fun j hj => ?_, fun j hj => ?_⟩
    · rw [hx.1] at he; cases he
    · rw [hp] at hw; cases hw
    · rw [hp] at hw; cases hw
    · have : j = 0 := by omega
      subst this
      rw [hc, hb, hx.2]; decide
    · have : j = 0 := by omega
      subst this
      exact ⟨by rw [hc]; omega, by simp [hc, hm]⟩
  refine ⟨by decide, ⟨rfl, by decide, rfl, by unfold linksRising; decide, by decide, by decide, by decide, by decide, by decide, by decide, ?_,
    ⟨rfl, by decide, rfl, rfl, by decide, by decide, rfl⟩, by decide⟩, by decide +kernel, ⟨rfl, rfl, ⟨by decide, rfl, by decide, ?_⟩, rfl⟩,
    ⟨rfl, .inl (by decide)⟩, ?_⟩
  · exact plain _ _ (.inr rfl) rfl rfl rfl rfl rfl
  · exact plain _ _ (.inl rfl) rfl rfl rfl rfl rfl
  · intro s r h
    have : r = link12 := List.mem_singleton.mp h.listed
    subst this
    refine ⟨rfl, fun h => ?_⟩
    rcases h.2 with h | h
    · revert h; decide
    · revert h; decide

/-- The path over the link of `withLink`. -/
def path12 : FoundPath := { candidate := 0, links := [⟨0, key12, []⟩], cost := 3, hops := 1, noise := 0, delay := 7 }

/-- Any search whose next step settles the destination of `running` over that link. -/
theorem finds_path12 (run : Running)
    (h : run.frontier = [label2] ∧ run.settled = [label1] ∧ run.req.destination = 2 ∧ run.candidate = 0) :
    SearchFinds run path12 := by
  obtain ⟨hf, hs, hd, hc⟩ := h
  refine ⟨label2, [⟨0, key12, []⟩], by rw [hf]; rfl, hd.symm, ?_, rfl, by rw [hc]; rfl⟩
  rw [hs]
  exact .step label2 label1 ⟨1, 0, ⟨0, key12, []⟩⟩ [] rfl (by decide) (.source _ rfl)

/-- `running` with other options, at the step that settles the destination. -/
def searchOf (policy : Policy) (diversity : Diversity) (claiming : HoldOption) : Running :=
  let run := running [label2] [label1]
  { run with req := { run.req with policy := policy, diversity := diversity, hold := claiming, retries := 255 } }

/-- A path of equal cost and less noise than `path12`, and one of more. -/
def quieter : FoundPath := { path12 with candidate := 1 }
def noisier : FoundPath := { path12 with candidate := 1, noise := fig 2048 40 }

theorem witness_SettlingStepReportsTheOutcome :
    ready.running = none ∧ ((running [] []).req.width = 1 ∧ (running [] []).req.retries ≤ 255) ∧
    -- a search that fails
    (SearchFails { running [] [] with remaining := [95] } ∧ SearchFails (running [label1] (List.replicate 255 label2)) ∧
      (running [] []).remaining = [] ∧ (running [] []).stage = .working ∧ (running [] []).req.policy = .firstFit ∧
      (let run := { running [] [] with stage := .protection, workRemaining := [95] }
       SearchFails run ∧ run.stage = .protection ∧ run.workRemaining = 95 :: [])) ∧
    -- a path found
    ((let run := searchOf .firstFit .pair .none
      SearchFinds run path12 ∧ run.stage = .working ∧ run.req.policy = .firstFit ∧ run.req.diversity = .pair ∧
        searchOrder run.req = 0 :: []) ∧
      (let run := searchOf .firstFit .none .none
       SearchFinds run path12 ∧ run.stage = .working ∧ run.req.diversity = .none ∧ run.req.hold = .none) ∧
      (let run := { searchOf .firstFit .pair .hold with stage := .protection, protecting := some path12 }
       SearchFinds run path12 ∧ run.stage = .protection ∧ run.protecting = some path12 ∧ run.req.hold = .hold)) ∧
    -- its claim
    (let q := claimOf (searchOf .firstFit .none .hold) path12 none
     (∃ handles t, claim q (withLink link12) = .success handles t) ∧ claim q (withLink used12) ≠ .conflict ∧
      claim q (withLink { link12 with state := .down }) = .conflict ∧
      claim q { withLink link12 with circuits := Vector.replicate 64 (some heldCircuit) } = .holdRefused) ∧
    -- BEST_FIT
    (let run := { searchOf .bestFit .none .hold with ranking := [quieter, noisier] }
     run.ranking = [quieter] ++ [noisier] ∧ (∀ x ∈ [quieter], ¬ Outranks path12 x) ∧
      (∀ x, [noisier].head? = some x → Outranks path12 x) ∧ SearchFinds run path12 ∧ run.req.policy = .bestFit ∧
      run.stage = .working ∧ run.remaining = [] ∧ run.req.diversity = .none ∧
      ∃ handles t, claim (claimOf run quieter none) (withLink link12) = .success handles t) ∧
    (let run := { searchOf .bestFit .pair .hold with stage := .protection, protecting := some path12, ranking := [quieter] }
     run.stage = .protection ∧ run.protecting = some path12 ∧ SearchFinds run path12 ∧ run.req.policy = .bestFit ∧
      claim (claimOf run path12 (some path12)) (withLink { link12 with state := .down }) = .conflict ∧
      run.req.diversity = .pair ∧ run.ranking = quieter :: [] ∧ searchOrder run.req = 0 :: []) ∧
    (let run := { searchOf .bestFit .none .none with remaining := [95] }
     SearchFinds run path12 ∧ run.remaining = 95 :: [] ∧ run.ranking = [] ++ [] ∧ run.req.hold = .none) ∧
    (let run := { searchOf .bestFit .none .hold with frontier := [], ranking := [quieter, noisier] }
     SearchFails run ∧ run.remaining = [] ∧
      ∀ x ∈ run.ranking, claim (claimOf run x none) (withLink { link12 with state := .down }) = .conflict) ∧
    (let run := { searchOf .bestFit .none .hold with frontier := [] }
     SearchFails run ∧ run.ranking = []) := by
  have h1 : ¬ Outranks path12 quieter := by unfold Outranks; decide
  have h2 : Outranks path12 noisier := by unfold Outranks; decide
  refine ⟨rfl, by decide, ⟨.inl rfl, .inr ⟨by decide +kernel, label1, rfl, by decide⟩, rfl, rfl, rfl, .inl rfl, rfl, rfl⟩,
    ⟨⟨finds_path12 _ (by decide), rfl, rfl, rfl, by decide⟩, ⟨finds_path12 _ (by decide), rfl, rfl, rfl⟩,
      finds_path12 _ (by decide), rfl, rfl, rfl⟩, ⟨⟨_, _, rfl⟩, nofun, rfl, rfl⟩, ⟨rfl, ?_, ?_, finds_path12 _ (by decide), rfl, rfl, rfl, rfl, ⟨_, _, rfl⟩⟩,
    ⟨rfl, rfl, finds_path12 _ (by decide), rfl, rfl, rfl, rfl, by decide⟩, ⟨finds_path12 _ (by decide), rfl, rfl, rfl⟩,
    ⟨.inl rfl, rfl, ?_⟩, .inl rfl, rfl⟩
  · intro x hx
    rw [List.mem_singleton.mp hx]
    exact h1
  · intro x hx
    cases hx
    exact h2
  · intro x hx
    rcases List.mem_cons.mp hx with rfl | hx
    · rfl
    · rw [List.mem_singleton.mp hx]
      rfl

/-! Circuits. -/

def aClaim (i : Nat) (p : Option ClaimPart) : Claim :=
  { owner := 1, tag := 5, holdTime := 10, allowDegraded := false, working := ⟨.working, 95, 1, [⟨i, key12⟩]⟩, protection := p }

def aPart (i : Nat) : ClaimPart := ⟨.protection, 0, 1, [⟨i, key12⟩]⟩

/-- The entry at `c`, with sequence 255. -/
def entryAt (c : CircuitNo) (e : Circuit) : State :=
  { withLink { link12 with channels := (Vector.replicate 96 SlotState.free).set 0 (e.slotState c) } with
    circuits := (Vector.replicate 64 none).set c (some e), sequences := (Vector.replicate 64 0).set c 255 }

theorem witness_HandleChecksComeInOrder :
    Heard (entryAt 63 heldCircuit) 1 0 ∧ 63 < (64 : Byte).toNat ∧
    ((63 : Byte).toNat = ((63 : CircuitNo) : Nat) ∧ (entryAt 0 heldCircuit).circuit 63 = none) ∧
    ((entryAt 63 heldCircuit).circuit 63 = some heldCircuit ∧ (entryAt 63 heldCircuit).sequence 63 ≠ 254 ∧
      (entryAt 63 heldCircuit).sequence 63 = 255) ∧
    (Heard (entryAt 63 heldCircuit) 0 0 ∧ heldCircuit.owner ≠ 0) :=
  ⟨heard 1 rfl, by decide, ⟨rfl, by decide⟩, ⟨by decide, by decide, by decide⟩, heard 0 rfl, by decide⟩

theorem claimOk_of {s : State} {q : Claim} {part : ClaimPart} (r : LinkRecord)
    (h : ∀ h ∈ part.path, s.linkAt h.index = some r ∧ r.key = h.key) (hu : r.state = .up) (hw : part.width = 1)
    (hf : ∃ h : part.firstSlot + 0 < 96, r.channels[part.firstSlot + 0] = .free) : ClaimOk s q part := by
  intro x hx
  refine ⟨r, (h x hx).1, (h x hx).2, .inl hu, fun j hj => ?_⟩
  have : j = 0 := by omega
  subst this
  exact hf

/-- Every index but 62 and 63 holds an entry. -/
def twoLeft : State :=
  { withLink link12 with circuits := Vector.ofFn fun c => if c < 62 then some litCircuit else none }

def oneLeft : State := twoLeft.setCircuit 62 (some litCircuit)

theorem witness_ClaimIsAllOrNothing :
    linksRising twoLeft.links ∧ linksRising oneLeft.links ∧ (aClaim 0 none).protection = none ∧
    (aClaim 0 (some (aPart 0))).protection = some (aPart 0) ∧
    (∀ c, { ready with circuits := Vector.replicate 64 (some litCircuit) }.circuit c ≠ none) ∧
    (oneLeft.circuit 63 = none ∧ (∀ x, x < 63 → oneLeft.circuit x ≠ none)) ∧
    (∀ a b, oneLeft.circuit a = none → oneLeft.circuit b = none → a = b) ∧
    (twoLeft.circuit 62 = none ∧ twoLeft.circuit 63 = none ∧ (62 : CircuitNo) < 63 ∧
      (∀ x, x < 63 → x ≠ 62 → twoLeft.circuit x ≠ none)) ∧
    (¬ ClaimOk oneLeft (aClaim 1023 none) (aClaim 1023 none).working ∧
      ClaimOk oneLeft (aClaim 0 none) (aClaim 0 none).working) ∧
    (¬ (ClaimOk twoLeft (aClaim 0 (some (aPart 9))) (aClaim 0 (some (aPart 9))).working ∧
        ClaimOk twoLeft (aClaim 0 (some (aPart 9))) (aPart 9)) ∧
      ClaimOk twoLeft (aClaim 0 (some (aPart 0))) (aClaim 0 (some (aPart 0))).working ∧
      ClaimOk twoLeft (aClaim 0 (some (aPart 0))) (aPart 0)) := by
  have refused : ∀ s q role f i, s.linkAt i = none → ¬ ClaimOk s q ⟨role, f, 1, [⟨i, key12⟩]⟩ := by
    intro s q role f i hs h
    obtain ⟨r, hr, -⟩ := h _ (List.mem_singleton_self _)
    rw [hs] at hr
    cases hr
  refine ⟨by unfold linksRising; decide, by unfold linksRising; decide, rfl, rfl, by decide +kernel, ⟨by decide +kernel, by decide +kernel⟩,
    by decide +kernel, ⟨by decide +kernel, by decide +kernel, by decide, by decide +kernel⟩,
    ⟨refused _ _ _ _ _ (by decide), claimOk_of link12 (by decide) rfl rfl (by decide)⟩,
    fun h => refused _ _ _ _ _ (by decide) h.2, claimOk_of link12 (by decide) rfl rfl (by decide),
    claimOk_of link12 (by decide) rfl rfl (by decide)⟩

theorem witness_CommitLightsTheEntry :
    Heard (entryAt 63 litCircuit) 1 0 ∧ linksRising (entryAt 63 litCircuit).links ∧ (63 : Byte).toNat = ((63 : CircuitNo) : Nat) ∧
    (entryAt 63 litCircuit).circuit 63 = some litCircuit ∧ (entryAt 63 litCircuit).sequence 63 = 255 ∧
    litCircuit.owner = 1 ∧ litCircuit.state = .lit ∧
    (Heard (entryAt 63 heldCircuit) 1 0 ∧ linksRising (entryAt 63 heldCircuit).links ∧
      (entryAt 63 heldCircuit).circuit 63 = some heldCircuit ∧ heldCircuit.owner = 1 ∧ heldCircuit.state = .held) :=
  ⟨heard 1 rfl, by unfold linksRising; decide, rfl, by decide, by decide, rfl, rfl, heard 1 rfl, by unfold linksRising; decide,
    by decide, rfl, rfl⟩

/-- An entry over a link that is to be removed with it. -/
def deferred : State :=
  { withCircuit heldCircuit with links := [{ stale12 with channels := (Vector.replicate 96 SlotState.free).set 0 (.held 0) }] }

theorem witness_ReleaseRemovesTheEntry :
    (Heard (withCircuit litCircuit) 1 0 ∧ linksRising (withCircuit litCircuit).links ∧
      (withCircuit litCircuit).circuit 0 = some litCircuit ∧ (withCircuit litCircuit).sequence 0 = 1 ∧ litCircuit.owner = 1 ∧
      (withCircuit litCircuit).links.countP (goesWith litCircuit) = 0) ∧
    (Heard deferred 1 0 ∧ linksRising deferred.links ∧ deferred.circuit 0 = some heldCircuit ∧ deferred.sequence 0 = 1 ∧
      deferred.links.countP (goesWith heldCircuit) = 1 ∧ StoreInv deferred) :=
  ⟨⟨heard 1 rfl, by unfold linksRising; decide, by decide, by decide, rfl, by decide +kernel⟩,
    heard 1 rfl, by unfold linksRising; decide, by decide, by decide, by decide +kernel, storeInv_of_test (by decide +kernel)⟩

theorem witness_HoldExpiryRemovesTheEntry :
    (linksRising (withCircuit heldCircuit).links ∧ (withCircuit heldCircuit).circuit 0 = some heldCircuit ∧
      heldCircuit.state = .held ∧ heldCircuit.hold.isSome = true ∧
      (withCircuit heldCircuit).links.countP (goesWith heldCircuit) = 0) ∧
    (linksRising deferred.links ∧ deferred.circuit 0 = some heldCircuit) ∧
    ((withCircuit litCircuit).circuit 0 = some litCircuit ∧ litCircuit.state = .lit) ∧
    (withCircuit heldCircuit).circuit 63 = none :=
  ⟨⟨by unfold linksRising; decide, by decide, rfl, rfl, by decide +kernel⟩, ⟨by unfold linksRising; decide, by decide⟩,
    ⟨by decide, rfl⟩, by decide⟩

theorem witness_QueriesAnswerWithTheRecord :
    Heard (entryAt 63 litCircuit) 1 0 ∧ (entryAt 63 litCircuit).linkByKey key21 = none ∧
    (withLink link12).linkByKey key12 = some link12 ∧ 63 < (64 : Byte).toNat ∧
    ((63 : Byte).toNat = ((63 : CircuitNo) : Nat) ∧ ready.circuit 63 = none) ∧
    (entryAt 63 litCircuit).circuit 63 = some litCircuit ∧ 7 < (8 : Byte).toNat ∧ (7 : Byte).toNat = ((7 : DegreeNo) : Nat) :=
  ⟨heard 1 rfl, by decide, rfl, by decide, ⟨rfl, by decide⟩, by decide, by decide, rfl⟩

/-! Degrees. -/

theorem witness_DegreeRequestsActOnDiscoveredLinks :
    (∀ r, (withLink link12).linkByKey key12 = some r → r.owner ≠ .discovery) ∧
    (let s := withPair .up .powerOn
     StoreInv s ∧ s.linkByKey key12 = some (found key12 0 .up) ∧ (found key12 0 .up).owner = .discovery ∧
      ∀ j : Fin 96, (found key12 0 .up).channels[j].used = false) ∧
    (let r := { found key12 0 .up with channels := usedMap }
     (withLink r).linkByKey key12 = some r ∧ r.owner = .discovery ∧ r.channels[0].used = true) ∧
    ((onDegree .powerOn).degree 7).installedPair = none ∧
    ((onDegree { Degree.powerOn with installedPair := some pair12 }).degree 7).installedPair = some pair12 ∧
    (installRoom [key12, key21] (withLink link12) = true ∧ (withLink link12).linkByKey key12 = some link12) ∧
    installRoom [⟨2, 3, 0⟩, ⟨3, 2, 0⟩] fullLinks = false ∧
    (let s := withLink link12
     StoreInv s ∧ keyLegal key21 ∧ s.linkByKey key21 = none ∧ (∀ r ∈ s.links, r.index ≠ 1) ∧
      (∀ j, j < 1 → ∃ r ∈ s.links, r.index = j) ∧ (s.unknownNodes [2, 1]).length ≤ s.freeNodes) :=
  ⟨not_owned_of (r := link12) rfl (by decide), ⟨storeInv_of_test (by decide +kernel), rfl, rfl, by decide⟩, ⟨rfl, rfl, by decide⟩,
    rfl, rfl, ⟨by decide, rfl⟩, by decide +kernel,
    storeInv_of_test (by decide +kernel), by unfold keyLegal; decide, rfl, by decide, by decide, by decide⟩

def setting (enable : Bool) : DegreeParams := ⟨enable, 2, 0, 0, [1, 2, 3, 4], 15, 100, 600⟩

theorem witness_SetDegreeWritesTheConfiguration :
    (Heard (onDegree .powerOn) 1 0 ∧ (setting true).srlg.length ≤ 255 ∧ 7 < (8 : Byte).toNat ∧ 2 < (3 : Byte).toNat ∧
      4 < [1, 2, 3, 4, 5].length ∧ 15 < (16 : Byte).toNat ∧ 100 < (101 : Byte).toNat ∧ 600 < (601 : BitVec 16).toNat) ∧
    ((7 : Byte).toNat = ((7 : DegreeNo) : Nat) ∧ (setting true).profile = 2 ∧ (setting true).srlg.length ≤ 4 ∧
      0 ∉ (setting true).srlg ∧ (setting true).srlg.Nodup ∧ (setting true).tries.toNat ≤ 15 ∧
      (setting true).lossDeclare.toNat ≤ 100 ∧ (setting true).holdDown.toNat ≤ 600) ∧
    ((setting false).enable = false ∧ (setting true).enable = true ∧ ((onDegree .powerOn).degree 7).state = .disabled ∧
      (setting true).lossDeclare ≠ 0) ∧
    (Heard (onDegree { Degree.powerOn with state := .idle }) 1 0 ∧
      ((onDegree { Degree.powerOn with state := .idle }).degree 7).state ≠ .disabled) ∧
    (let p := { setting true with lossDeclare := 0 }
     p.enable = true ∧ Degree.powerOn.carrier = .absent ∧ Degree.powerOn.lossTimer = none ∧ p.lossDeclare = 0) :=
  ⟨⟨heard 1 rfl, by decide, by decide, by decide, by decide, by decide, by decide, by decide⟩, by decide, by decide,
    ⟨heard 1 rfl, by decide⟩, by decide⟩

def probing : Degree := { Degree.powerOn with state := .probing, outstanding := some .ident, probeTimer := some 250 }

theorem witness_DiscoverStartsADiscovery :
    (Heard ready 1 0 ∧ 7 < (8 : Byte).toNat ∧ (7 : Byte).toNat = ((7 : DegreeNo) : Nat) ∧ ready.localId = 0) ∧
    (let s := onDegree { Degree.powerOn with state := .up }
     Heard s 1 0 ∧ s.localId ≠ 0 ∧ (s.degree 7).state ≠ .disabled ∧ (s.degree 7).config.tries ≠ 0 ∧
      (s.degree 7).config.lossDeclare ≠ 0) ∧
    (let s := onDegree { Degree.powerOn with state := .up, config := { DegreeConfig.default with tries := 0 }, carrier := .present }
     Heard s 1 0 ∧ s.localId ≠ 0 ∧ (s.degree 7).state ≠ .disabled ∧ (s.degree 7).config.tries = 0 ∧
      (s.degree 7).carrier = .present) ∧
    (let s := onDegree { probing with config := { DegreeConfig.default with lossDeclare := 0 } }
     Heard s 1 0 ∧ s.localId ≠ 0 ∧ (s.degree 7).state ≠ .disabled ∧ (s.degree 7).config.tries ≠ 0 ∧
      (s.degree 7).carrier = .absent ∧ (s.degree 7).lossTimer = none ∧ (s.degree 7).config.lossDeclare = 0 ∧
      (s.degree 7).state = .probing) :=
  ⟨⟨heard 1 rfl, by decide, rfl, rfl⟩, ⟨heard 1 rfl, by decide, by decide, by decide, by decide⟩,
    ⟨heard 1 rfl, by decide, by decide, rfl, rfl⟩, heard 1 rfl, by decide, by decide, by decide, rfl, rfl, rfl, rfl⟩

theorem witness_LoadCounterPresetsTheCounter :
    Heard ready 1 0 ∧ 7 < (8 : Byte).toNat ∧ 2 < (3 : Byte).toNat ∧ (7 : Byte).toNat = ((7 : DegreeNo) : Nat) ∧
    counterOf ((onDegree .powerOn).degree 7) .probeTimeouts ≠ 255 ∧
    counterOf ((onDegree { Degree.powerOn with carrierDrops := 255 }).degree 7) .carrierDrops = 255 :=
  ⟨heard 1 rfl, by decide, by decide, rfl, by decide, by decide⟩

def ident (node : NodeId) (count : Byte) (overflow : Bool) : IdentContents := ⟨node, 5, 1, 1, count, overflow⟩

/-- No slot of the links of `withPair` is in use. -/
theorem not_busy (st : LinkState) (x : Degree) : ¬ PairBusy (withPair st x) pair12 := by
  rintro ⟨r, h | h, i, hi⟩ <;> cases h <;> simp [found, link12, SlotState.used] at hi

theorem witness_IdentAnswerOpensTheCollection :
    (let s := onDegree probing
     s.loadState = .ready ∧ (s.degree 7).state = .probing ∧ (s.degree 7).outstanding = some .ident) ∧
    ((ident 2 15 true).siteCount.toNat ≤ 15 ∧ (ident 2 15 true).overflow = true) ∧
    ((ident 1 0 false).overflow = false ∧ (ident 1 0 false).node = (onDegree probing).localId) ∧
    (let f := ident 3 15 false
     let s := { onDegree { probing with installedPair := some pair12 } with
       links := [{ found key12 0 .up with channels := usedMap }, found key21 1 .up] }
     f.overflow = false ∧ f.node ≠ 0 ∧ f.node ≠ s.localId ∧ (s.degree 7).installedPair = some pair12 ∧
      pair12.outgoing.toNode ≠ f.node ∧ PairBusy s pair12) ∧
    (let f := ident 3 15 false
     let s := withPair .up { probing with installedPair := some pair12 }
     (s.degree 7).installedPair = some pair12 ∧ pair12.outgoing.toNode ≠ f.node ∧ ¬ PairBusy s pair12) ∧
    (let f := ident 2 15 false
     f.node ≠ (onDegree probing).localId ∧ ((onDegree probing).degree 7).installedPair = none ∧
      pair12.outgoing.toNode = f.node ∧ pair12.ret.iface = f.iface ∧ f.siteCount ≠ 0) :=
  ⟨by decide, by decide, by decide, ⟨by decide, by decide, by decide, rfl, by decide, _, .inl rfl, 0, by decide⟩,
    ⟨rfl, by decide, not_busy _ _⟩, by decide⟩

def collecting (b : Nat) (chain : List SiteRecord) (count : Nat) : Degree :=
  { Degree.powerOn with
    state := .collecting, outstanding := some (.chain b), probeTimer := some 250, chain := chain, siteCount := count
    farNode := 2, farIface := 5 }

def aSite : SiteRecord := ⟨9, 1, 1, fig 2048 40, false⟩

theorem witness_ChainAnswerAppendsItsSites :
    (let s := onDegree (collecting 1 (List.replicate 5 aSite) 15)
     s.loadState = .ready ∧ (s.degree 7).state = .collecting ∧ (s.degree 7).outstanding = some (.chain (1 : Byte).toNat) ∧
      1 ≤ (List.replicate 5 aSite).length ∧ (List.replicate 5 aSite).length ≤ 5 ∧ (1 : Byte).toNat < 2) ∧
    (let s := onDegree (collecting 2 (List.replicate 10 aSite) 15)
     (s.degree 7).outstanding = some (.chain (2 : Byte).toNat) ∧ 2 ≤ (2 : Byte).toNat ∧
      (s.degree 7).chain.length + [aSite].length ≠ (s.degree 7).siteCount) := by decide

/-- Local node 1, every link index taken, every degree as `x`. -/
def crowded (x : Degree) : State := { onDegree x with links := manyLinks 1024 }

theorem crowded_room (x : Degree) (k1 k2 : LinkKey) (h : k1 = ⟨1, 2, 7⟩ ∧ k2 = key21) : installRoom [k1, k2] (crowded x) = false := by
  obtain ⟨rfl, rfl⟩ := h
  have h1 : installRoom [⟨1, 2, 7⟩, key21] (crowded .powerOn) = false := by decide +kernel
  exact h1

/-- An old pair towards node 3. -/
def pair13 : InstalledPair := ⟨⟨1, 3, 7⟩, ⟨3, 1, 5⟩⟩

/-- The last CHAIN answer is to come, with the old pair `p`. -/
def completing (p : Option InstalledPair) (recovery : Bool) : Degree :=
  { collecting 0 [] 5 with installedPair := p, recovery := recovery, farOccupied := 1 }

/-- READY with the degree's discovery complete at a CHAIN answer of five sites. -/
def completes (s : State) (d : DegreeNo) : Prop :=
  s.loadState = .ready ∧ (s.degree d).state = .collecting ∧ (s.degree d).outstanding = some (.chain (0 : Byte).toNat) ∧
  (s.degree d).chain.length + (List.replicate 5 aSite).length = (s.degree d).siteCount

/-- The links of `withPair` towards node 2 and of `pair13`, one of them in use. -/
def twoPairs (p : Option InstalledPair) (recovery : Bool) : State :=
  { withPair .up (completing p recovery) with
    nodes := [⟨1, 0, .localNode, 4⟩, ⟨2, 1, .remote, 2⟩, ⟨3, 2, .remote, 2⟩]
    links := [{ found ⟨1, 2, 7⟩ 0 .up with channels := usedMap }, found key21 1 .up,
      { found ⟨1, 3, 7⟩ 2 .up with channels := usedMap }, found ⟨3, 1, 5⟩ 3 .up] }

theorem witness_DiscoveryInstallsThePair :
    (let s := onDegree (completing none false)
     StoreInv s ∧ completes s 7 ∧ (s.degree 7).recovery = false ∧ (s.degree 7).installedPair = none ∧
      installRoom [⟨1, 2, 7⟩, key21] s = true ∧ s.linkByKey ⟨1, 2, 7⟩ = none ∧ s.linkByKey ⟨2, 1, 5⟩ = none) ∧
    (let s := onDegree probing
     let f := ident 2 0 false
     s.loadState = .ready ∧ (s.degree 7).state = .probing ∧ (s.degree 7).outstanding = some .ident ∧ f.overflow = false ∧
      f.node ≠ 0 ∧ f.node ≠ s.localId ∧ f.siteCount = 0 ∧ (s.degree 7).installedPair = none ∧ (s.degree 7).recovery = false) ∧
    -- into service: the standing pair, an old pair of another far end, and no room
    (let s := twoPairs (some ⟨⟨1, 2, 7⟩, key21⟩) false
     completes s 7 ∧ (s.degree 7).recovery = false ∧ installRoom [⟨1, 2, 7⟩, key21] s = true ∧
      PairOverlaps s ⟨⟨1, 2, 7⟩, key21⟩ (s.degree 7).farOccupied) ∧
    (let s := twoPairs (some pair13) false
     completes s 7 ∧ (s.degree 7).installedPair = some pair13 ∧ pair13.outgoing.toNode ≠ (s.degree 7).farNode ∧
      installRoom [⟨1, 2, 7⟩, key21] (removePair 7 s) = true) ∧
    (let s := crowded (completing none false)
     completes s 7 ∧ (s.degree 7).installedPair = none ∧ installRoom [⟨1, 2, 7⟩, key21] s = false) ∧
    -- into hold-down: the standing pair, no pair, an old pair in use and one not in use, and no room
    (let s := withPair .down (completing (some pair12) true)
     completes s 7 ∧ (s.degree 7).installedPair = some pair12 ∧ pair12.outgoing.toNode = (s.degree 7).farNode ∧
      pair12.ret.iface = (s.degree 7).farIface ∧ (s.degree 7).recovery = true ∧ (s.degree 7).config.holdDown ≠ 0) ∧
    (let s := onDegree (completing none true)
     completes s 7 ∧ (s.degree 7).recovery = true ∧ (s.degree 7).installedPair = none ∧
      installRoom [⟨1, 2, 7⟩, key21] s = true) ∧
    (let s := twoPairs (some pair13) true
     completes s 7 ∧ (s.degree 7).recovery = true ∧ (s.degree 7).installedPair = some pair13 ∧ PairBusy s pair13 ∧
      installRoom [⟨1, 2, 7⟩, key21] s = true) ∧
    (let s := withPair .down { completing (some pair12) true with farNode := 3 }
     completes s 7 ∧ (s.degree 7).recovery = true ∧ pair12.outgoing.toNode ≠ (s.degree 7).farNode ∧ ¬ PairBusy s pair12 ∧
      installRoom [⟨1, 3, 7⟩, ⟨3, 1, 5⟩] (removePair 7 s) = true) ∧
    (let s := crowded (completing none true)
     completes s 7 ∧ (s.degree 7).recovery = true ∧ installRoom [⟨1, 2, 7⟩, key21] s = false) := by
  have full : ∀ x, installRoom [⟨1, 2, 7⟩, key21] (crowded x) = false := fun x => crowded_room x _ _ ⟨rfl, rfl⟩
  refine ⟨⟨storeInv_of_test (by decide +kernel), ⟨rfl, rfl, rfl, rfl⟩, by decide⟩, by decide,
    ⟨⟨rfl, rfl, rfl, rfl⟩, rfl, by decide +kernel, _, .inl rfl, 0, by decide⟩, ⟨⟨rfl, rfl, rfl, rfl⟩, rfl, by decide, by decide +kernel⟩,
    ⟨⟨rfl, rfl, rfl, rfl⟩, rfl, full _⟩, ⟨⟨rfl, rfl, rfl, rfl⟩, by decide⟩, ⟨⟨rfl, rfl, rfl, rfl⟩, by decide⟩,
    ⟨⟨rfl, rfl, rfl, rfl⟩, rfl, rfl, ⟨_, .inl rfl, 0, by decide⟩, by decide +kernel⟩,
    ⟨⟨rfl, rfl, rfl, rfl⟩, rfl, by decide, not_busy _ _, by decide +kernel⟩, ⟨rfl, rfl, rfl, rfl⟩, rfl, full _⟩

def serving (st : DegreeState) (run : Nat) (alarm : Bool) : Degree :=
  { Degree.powerOn with
    state := st, outstanding := some .keepalive, probeTimer := some 250, intervalTimer := some 750, errorRun := run
    installedPair := some pair12, chain := [{ aSite with alarm := alarm }], missCount := 2 }

theorem witness_KeepaliveAnswerKeepsTheService :
    (let s := withPair .up (serving .up 3 false)
     StoreInv s ∧ s.loadState = .ready ∧ (s.degree 7).outstanding = some .keepalive ∧ (s.degree 7).state = .up ∧
      (s.degree 7).errorRun < 4 ∧ (s.degree 7).installedPair = some pair12) ∧
    (let s := withPair .up (serving .up 4 false)
     StoreInv s ∧ (s.degree 7).state = .up ∧ 4 ≤ (s.degree 7).errorRun) ∧
    (let s := withPair .degraded (serving .degraded 3 true)
     StoreInv s ∧ (s.degree 7).state = .degraded ∧ (s.degree 7).errorRun < 4) ∧
    (let s := withPair .degraded (serving .degraded 4 true)
     StoreInv s ∧ (s.degree 7).state = .degraded ∧ 4 ≤ (s.degree 7).errorRun ∧ ∃ z ∈ (s.degree 7).chain, z.alarm = true) ∧
    (let s := withPair .degraded (serving .degraded 4 false)
     StoreInv s ∧ (s.degree 7).state = .degraded ∧ 4 ≤ (s.degree 7).errorRun ∧ ∀ z ∈ (s.degree 7).chain, z.alarm = false) ∧
    (let s := withPair .holddown (serving .holddown 0 false)
     StoreInv s ∧ (s.degree 7).state = .holddown) ∧
    (let s := onDegree { serving .up 0 false with installedPair := none }
     StoreInv s ∧ (s.degree 7).outstanding = some .keepalive ∧ (s.degree 7).installedPair = none) :=
  ⟨⟨storeInv_of_test (by decide +kernel), by decide⟩, ⟨storeInv_of_test (by decide +kernel), by decide⟩,
    ⟨storeInv_of_test (by decide +kernel), by decide⟩, ⟨storeInv_of_test (by decide +kernel), by decide⟩,
    ⟨storeInv_of_test (by decide +kernel), by decide⟩, ⟨storeInv_of_test (by decide +kernel), by decide⟩,
    storeInv_of_test (by decide +kernel), by decide⟩

theorem witness_StrayAnswersAreCounted :
    (let x : SiteRecord := ⟨7, 65535, 16777215#24, 64, true⟩
     (ScAnswer.ident ⟨2, 5, 1, 2, 15, true⟩).Legal ∧ (ScAnswer.chain 2 [x] true).Legal ∧
      (ScAnswer.chain 255 [x, x, x, x, x] false).Legal ∧ (ScAnswer.keepalive true 1).Legal ∧
      judgeAnswer (answerFrame (.chain 2 [x] true)) = some (.chain 2 [x] true) ∧
      judgeAnswer (answerFrame (.ident ⟨2, 5, 1, 2, 16, true⟩)) = none) ∧
    (let s := onDegree (serving .up 0 false)
     s.loadState = .ready ∧ (s.degree 7).state ≠ .disabled ∧ judgeAnswer [] = none ∧
      (s.degree 7).outstanding ≠ some .ident ∧ (s.degree 7).outstanding ≠ some (.chain (2 : Byte).toNat)) ∧
    ((onDegree (collecting 1 [] 5)).degree 7).outstanding ≠ some .keepalive ∧
    ((onDegree (collecting 1 [] 5)).degree 7).outstanding ≠ some (.chain (0 : Byte).toNat) ∧
    State.reset.loadState ≠ .ready ∧ ((onDegree .powerOn).degree 7).state = .disabled := by
  refine ⟨⟨show (15 : Byte).toNat ≤ 15 by decide, show 1 ≤ 1 ∧ 1 ≤ 5 by decide, show 1 ≤ 5 ∧ 5 ≤ 5 by decide, trivial, ?_⟩, ?_⟩ <;>
    decide +kernel

theorem witness_ProbesAndTheirTimers :
    (let x := { probing with probeTimer := none }
     (onDegree x).degree 7 = x ∧ x.outstanding = some .ident ∧ x.probeTimer = none) ∧
    (probing.probeTimer ≠ none ∧ Probe.ident ≠ .keepalive ∧ { probing with triesRemaining := 2 }.triesRemaining = 2) ∧
    ({ probing with triesRemaining := 1 }.triesRemaining < 2 ∧ { probing with triesRemaining := 1 }.probeTimer ≠ none) ∧
    (Degree.powerOn.outstanding = none ∧ Degree.powerOn.probeTimer = none ∧ Degree.powerOn.intervalTimer = none) ∧
    (let x := { serving .up 0 false with missCount := 1 }
     x.outstanding = some .keepalive ∧ x.probeTimer ≠ none ∧ x.missCount < 2 ∧ x.intervalTimer ≠ none) ∧
    2 ≤ (serving .up 0 false).missCount := by decide +kernel

theorem witness_CarrierChangeIsToldAndTimed :
    ((onDegree .powerOn).degree 7 = .powerOn ∧ Degree.powerOn.carrier = .absent ∧ State.reset.loadState = .loading) ∧
    (let x := { Degree.powerOn with state := .lost, recovery := true }
     (onDegree x).loadState = .ready ∧ x.carrier = .absent ∧ x.state ≠ .disabled) ∧
    ((onDegree .powerOn).loadState = .ready ∧ Degree.powerOn.state = .disabled) ∧
    ({ onDegree .powerOn with loadState := .resetFromReady }.loadState = .resetFromReady) ∧
    (let x := { serving .up 0 false with carrier := .present }
     x.carrier = .present ∧ x.state ≠ .disabled ∧ x.config.lossDeclare ≠ 0) ∧
    (let x := { serving .up 0 false with carrier := .present, config := { DegreeConfig.default with lossDeclare := 0 } }
     x.carrier = .present ∧ x.state = .up ∧ x.config.lossDeclare = 0) ∧
    (let x := { Degree.powerOn with
       state := .fault, carrier := .present, config := { DegreeConfig.default with lossDeclare := 0 } }
     x.carrier = .present ∧ x.state = .fault ∧ x.config.lossDeclare = 0) := by decide +kernel

theorem witness_DebounceExpiriesMoveTheDegree :
    (Degree.powerOn.lossTimer = none ∧ Degree.powerOn.settleTimer = none) ∧
    (let x := { serving .up 0 false with lossTimer := some 1 }
     (onDegree x).degree 7 = x ∧ x.lossTimer ≠ none ∧ x.state = .up) ∧
    (let x := { Degree.powerOn with state := .fault, lossTimer := some 1 }
     x.lossTimer ≠ none ∧ x.state = .fault) ∧
    (let x := { Degree.powerOn with state := .idle, settleTimer := some 1, carrier := .present }
     x.settleTimer ≠ none ∧ x.state ≠ .lost ∧ ready.localId = 0) ∧
    (let x := { Degree.powerOn with state := .lost, recovery := true, settleTimer := some 1, carrier := .present }
     (onDegree x).localId ≠ 0 ∧ x.settleTimer ≠ none ∧ x.state = .lost ∧ x.config.tries ≠ 0 ∧ x.carrier = .present) ∧
    (let x := { Degree.powerOn with
       state := .lost, recovery := true, settleTimer := some 1, carrier := .present
       config := { DegreeConfig.default with tries := 0 } }
     x.settleTimer ≠ none ∧ x.state = .lost ∧ x.config.tries = 0 ∧ x.carrier = .present) := by
  decide +kernel

def waitingInstall : Degree :=
  { serving .holddown 0 false with
    pendingInstall := some ⟨.up, 1, 1, fig 2048 40, false, [], 0⟩, holdDownTimer := some 1, recovery := true, farOccupied := 1 }

theorem witness_HoldDownExpiryEntersService :
    (Degree.powerOn.holdDownTimer = none) ∧
    (let s := withPair .holddown waitingInstall
     StoreInv s ∧ s.degree 7 = waitingInstall ∧ waitingInstall.holdDownTimer ≠ none ∧
      waitingInstall.installedPair = some pair12 ∧ waitingInstall.pendingInstall = some ⟨.up, 1, 1, fig 2048 40, false, [], 0⟩ ∧
      s.linkByKey key12 = some (found key12 0 .holddown) ∧ s.linkByKey key21 = some (found key21 1 .holddown)) ∧
    (let x := { waitingInstall with installedPair := some ⟨⟨1, 2, 7⟩, key21⟩ }
     (crowded x).degree 7 = x ∧ installRoom [⟨1, 2, 7⟩, key21] (crowded x) = false) :=
  ⟨rfl, ⟨storeInv_of_test (by decide +kernel), by decide +kernel⟩, rfl, crowded_room _ _ _ ⟨rfl, rfl⟩⟩

/-! Start-up, warm reset and the invariants. -/

/-- LOADING with agent 2's link up and degree 7's carrier PRESENT. -/
def loadingState (warm : Bool) : State :=
  { State.reset with
    warmAsserted := warm, ports := (Vector.replicate 4 Port.powerOn).set 2 { Port.powerOn with linkUp := true }
    degrees := (Vector.replicate 8 Degree.powerOn).set 7 { Degree.powerOn with lineCarrier := .present } }

theorem loading_sound (warm : Bool) : Sound (loadingState warm) := by
  cases warm <;>
    exact sound_of_tests (by decide +kernel) (by decide +kernel) (by decide +kernel) (by decide +kernel) (by decide +kernel)

/-- An image: local id 1, ports 0 and 3 and degrees 6 and 7 enabled, the default values in every degree block but the last, which
has two equal risk groups. -/
def anImage : Image :=
  let block : ImageBlock := ⟨0, 3, 20, 0, 100, 10, Vector.replicate 4 0, BitVec.allOnes 96⟩
  { localId := 1, ports := 0x90, enables := 0x03, unread := Vector.replicate 4 0
    blocks := (Vector.replicate 8 block).set 7 { block with count := 2, places := #v[5, 5, 0, 0] } }

/-- Section 10.7: the fields of the image. -/
theorem test_image : imageAt anImage.bytes 4 2 = 244 ∧ imageAt anImage.bytes 8 4 = 1 ∧
    imagePorts (imageAt anImage.bytes 12 1) = 9 ∧ configOf (degreeBlock anImage.bytes 5) = some .default ∧
    configOf (degreeBlock anImage.bytes 6) = some { DegreeConfig.default with enable := true } ∧
    configOf (degreeBlock anImage.bytes 7) = none := by decide +kernel

theorem witness_ConfigurationStartsThePart :
    ((List.replicate 243 (0 : Byte)).length < 244 ∧ (List.replicate 244 (0 : Byte)).length = 244 ∧
      (List.replicate 244 (0 : Byte)).take 4 ≠ [0x53, 0x38, 0x31, 0x34]) ∧
    (let b := anImage.blocks[6]
     b.profile = 0 ∧ b.tries.toNat ≤ 15 ∧ b.lossDeclare.toNat ≤ 100 ∧ b.holdDown.toNat ≤ 600 ∧ b.count.toNat ≤ 4 ∧
      0 ∉ b.places.toList.take b.count.toNat ∧ (b.places.toList.take b.count.toNat).Nodup) ∧
    (let b := anImage.blocks[7]
     ¬ (b.places.toList.take b.count.toNat).Nodup) ∧
    ready.loadState ≠ .loading ∧
    (Sound (loadingState false) ∧ (loadingState false).loadState = .loading ∧ (loadingState false).warmAsserted = false) ∧
    (Sound (loadingState true) ∧ (loadingState true).loadState = .loading ∧ (loadingState true).warmAsserted = true) :=
  ⟨by decide +kernel, by decide +kernel, by decide +kernel, by decide, ⟨loading_sound _, rfl, rfl⟩, loading_sound _, rfl, rfl⟩

/-- READY, a pair of discovered links, one of agent 1 under a HELD and one under a LIT circuit, and a QUEUED request behind the
RUNNING one. -/
def inService : State :=
  { withPair .up { serving .up 0 false with config := { DegreeConfig.default with enable := true } } with
    nodes := [⟨1, 0, .localNode, 3⟩, ⟨2, 1, .remote, 3⟩]
    links := [found key12 0 .up, found key21 1 .up,
      { link12 with
        key := ⟨1, 2, 9⟩, index := 2
        channels := (Vector.replicate 96 SlotState.free).set 0 (.held 0) |>.set 95 (.lit 1) }]
    circuits := (Vector.replicate 64 none).set 0 (some { heldCircuit with path := [⟨2, ⟨1, 2, 9⟩⟩] })
      |>.set 1 (some { litCircuit with path := [⟨2, ⟨1, 2, 9⟩⟩], firstSlot := 95 })
    sequences := (Vector.replicate 64 0).set 0 1 |>.set 1 1
    running := some (running [⟨1, 0, 0, 0, 0, 0, none⟩] []), queued := (Vector.replicate 4 []).set 1 [request 9 4 1]
    ports := (Vector.replicate 4 agentPort).set 1 { agentPort with
      slots := (Vector.replicate 8 Slot.free).set 0 (.reserved 8 6) |>.set 1 (.reserved 9 6) } }

theorem inService_sound : Sound inService :=
  sound_of_tests (by decide +kernel) (by decide +kernel) (by decide +kernel) (by decide +kernel) (by decide +kernel)

/-- During a warm reset: degrees IDLE, ports DOWN with their links up. -/
def resetting : State :=
  { onDegree { Degree.powerOn with state := .idle, config := { DegreeConfig.default with enable := true } } with
    loadState := .resetFromReady, warmAsserted := true, ports := Vector.replicate 4 { Port.powerOn with linkUp := true } }

theorem witness_WarmResetActsAtBothEdges :
    (State.reset.loadState ≠ .ready ∧ State.reset.loadState = .loading) ∧
    (Sound inService ∧ inService.loadState = .ready ∧
      inService.circuit 1 = some { litCircuit with path := [⟨2, ⟨1, 2, 9⟩⟩], firstSlot := 95 } ∧
      inService.circuit 0 = some { heldCircuit with path := [⟨2, ⟨1, 2, 9⟩⟩] } ∧
      ∃ r ∈ inService.links, r.owner = .agent 1 ∧ r.state ≠ .stale ∧ r.removalDeferred = false) ∧
    (Sound resetting ∧ resetting.loadState = .resetFromReady ∧ (resetting.degree 7).state = .idle ∧
      (resetting.degree 7).config.lossDeclare ≠ 0 ∧ resetting.localId ≠ 0 ∧ (resetting.degree 7).config.tries ≠ 0) ∧
    { State.reset with loadState := .resetFromLoading }.loadState = .resetFromLoading :=
  ⟨by decide, ⟨inService_sound, by decide +kernel, by decide +kernel, by decide +kernel, by decide +kernel⟩,
    ⟨sound_of_tests (by decide +kernel) (by decide +kernel) (by decide +kernel) (by decide +kernel) (by decide +kernel), by decide⟩, rfl⟩

theorem witness_CommandBodiesAreExact :
    (AgentCommand.setFilter (List.replicate 255 ⟨0, 0⟩) 0).wellFormed = true ∧ (AgentCommand.queryCircuit 5).wellFormed = true ∧
    judgeBody (commandBody 0x0107 (.queryCircuit 5)) = .wellFormed 0x0107 (.queryCircuit 5) := by decide +kernel

/-- For each of the four statements on every step: a sound state and the state that the tick leads it to. -/
theorem witness_StepKeeps : Sound inService ∧ ∃ t, step inService = .next t := ⟨inService_sound, _, rfl⟩

end Sys2Proof.Tests
end

section
/-! THEOREM. LIST LINKS (R25): the entries it collects from the link table, and the answer it gives. -/

namespace Sys2Proof.Machine

variable {s : State} {start : Nat}

/-! ## The rising link table -/

/-- In a rising table the index names the record (R5). -/
theorem linksRising.eq_of_index_eq {l : List LinkRecord} (h : linksRising l) {x y : LinkRecord} (hx : x ∈ l) (hy : y ∈ l)
    (he : x.index = y.index) : x = y := by
  have hmap : (l.map (·.index)).Pairwise (· < ·) := List.pairwise_map.mpr h
  have hnodup : (l.map (·.index)).Nodup := hmap.imp Nat.ne_of_lt
  exact List.inj_on_of_nodup_map hnodup hx hy he

/-- Each record of a rising table is found at its own index. -/
theorem linkAt_of_mem (h : linksRising s.links) {r : LinkRecord} (hr : r ∈ s.links) : s.linkAt r.index = some r := by
  unfold State.linkAt
  cases hf : s.links.find? fun x => x.index = r.index with
  | none => exact absurd (List.find?_eq_none.mp hf r hr) (by simp)
  | some x =>
    have hx : x.index = r.index := by simpa using List.find?_some hf
    rw [h.eq_of_index_eq (List.mem_of_find?_eq_some hf) hr hx]

/-- The first records of a rising table are those of lowest index: one that does not come after one of them is among them. -/
theorem linksRising.mem_take_of_le {l : List LinkRecord} (h : linksRising l) {n : Nat} {x r : LinkRecord} (hx : x ∈ l.take n)
    (hr : r ∈ l) (hle : r.index ≤ x.index) : r ∈ l.take n := by
  rw [← List.take_append_drop n l] at h hr
  obtain ⟨-, -, hlt⟩ := List.pairwise_append.mp h
  rcases List.mem_append.mp hr with hfirst | hrest
  · exact hfirst
  · exact absurd (hlt x hx r hrest) (Nat.not_lt_of_le hle)

/-! ## The entries collected (R25) -/

/-- At most 8 entries are collected. -/
theorem listedLinks_length_le : (listedLinks s start).length ≤ 8 := by simp [listedLinks]

/-- Entries are the index and key of the first 8 records from the start index on. -/
theorem mem_listedLinks {e : Nat × LinkKey} :
    e ∈ listedLinks s start ↔ ∃ r ∈ (s.links.filter fun r => start ≤ r.index).take 8, (r.index, r.key) = e := by
  simp only [listedLinks, List.mem_map]

/-- Entries come in ascending order of their indexes. -/
theorem listedLinks_rising (h : linksRising s.links) : (listedLinks s start).Pairwise fun x y => x.1 < y.1 :=
  List.pairwise_map.mpr ((h.filter _).sublist (List.take_sublist 8 _))

/-- Each entry stands in the table, at or above the start index, with its key. -/
theorem linkAt_of_mem_listedLinks (h : linksRising s.links) {e : Nat × LinkKey} (he : e ∈ listedLinks s start) :
    start ≤ e.1 ∧ ∃ r, s.linkAt e.1 = some r ∧ r.key = e.2 := by
  obtain ⟨r, hr, rfl⟩ := mem_listedLinks.mp he
  obtain ⟨hmem, hstart⟩ := List.mem_filter.mp (List.mem_of_mem_take hr)
  exact ⟨of_decide_eq_true hstart, r, linkAt_of_mem h hmem, rfl⟩

/-! ## The next index (R25) -/

/-- Behind 8 entries the next index is one above the last. -/
theorem nextIndex_of_full {l : List (Nat × LinkKey)} {e : Nat × LinkKey} (hl : l.length = 8) (he : l.getLast? = some e) :
    nextIndex l = e.1 + 1 := by
  simp [nextIndex, hl, he]

/-- Fewer than 8 entries end the walk. -/
theorem nextIndex_of_lt {l : List (Nat × LinkKey)} (hl : l.length < 8) : nextIndex l = 1024 := by
  simp [nextIndex, Nat.ne_of_lt hl]

/-- No record from the start index up to the next index is passed over. -/
theorem mem_listedLinks_of_lt_nextIndex (h : linksRising s.links) {r : LinkRecord} (hr : r ∈ s.links) (hstart : start ≤ r.index)
    (hnext : r.index < nextIndex (listedLinks s start)) : (r.index, r.key) ∈ listedLinks s start := by
  have hcand : r ∈ s.links.filter fun r => start ≤ r.index := List.mem_filter.mpr ⟨hr, decide_eq_true hstart⟩
  refine mem_listedLinks.mpr ⟨r, ?_, rfl⟩
  rcases Nat.lt_or_eq_of_le (listedLinks_length_le (s := s) (start := start)) with hlt | hfull
  · -- A walk that ends took every candidate.
    have hfew : (s.links.filter fun r => start ≤ r.index).length ≤ 8 := by
      simp only [listedLinks, List.length_map, List.length_take] at hlt
      omega
    rwa [List.take_of_length_le hfew]
  · -- A full answer: `r` does not come after its last entry.
    have hne : listedLinks s start ≠ [] := List.ne_nil_of_length_eq_add_one hfull
    have he := List.getLast?_eq_some_getLast hne
    obtain ⟨x, hx, hlast⟩ := mem_listedLinks.mp (List.getLast_mem hne)
    rw [nextIndex_of_full hfull he, ← hlast] at hnext
    exact linksRising.mem_take_of_le (h.filter _) hx hcand (Nat.le_of_lt_succ hnext)

/-! ## The answer (R25) -/

/-- A LIST LINKS that is heard reaches the store with its kind, 4. -/
theorem exec_listLinks_heard {a : AgentId} {k : SlotNo} (h : Heard s a k) (ref start : BitVec 16) :
    exec (.listLinks a ref start) s = .next (storeList ⟨a, k, ref, 4⟩ start (taken a k ref 4 s)) :=
  send_heard h ref (.listLinks start) rfl

/-- A start index beyond the table is answered BAD_FIELD. -/
theorem storeList_taken_beyond {a : AgentId} {k : SlotNo} (ref : BitVec 16) {start : BitVec 16} (hs : 1024 ≤ start.toNat) :
    storeList ⟨a, k, ref, 4⟩ start (taken a k ref 4 s) = replied a k ⟨ref, 4, .badField, .empty⟩ s := by
  rw [storeList, if_pos hs, answer_taken]

/-- A start index of the table is answered with the entries collected from the table as it stood before the take. -/
theorem storeList_taken_within {a : AgentId} {k : SlotNo} (ref : BitVec 16) {start : BitVec 16} (hs : start.toNat < 1024) :
    storeList ⟨a, k, ref, 4⟩ start (taken a k ref 4 s) =
      replied a k ⟨ref, 4, .ok, .links (listedLinks s start.toNat) (nextIndex (listedLinks s start.toNat)) s.generation⟩ s := by
  have hlinks : listedLinks (taken a k ref 4 s) start.toNat = listedLinks s start.toNat := rfl
  have hgen : (taken a k ref 4 s).generation = s.generation := rfl
  rw [storeList, if_neg (Nat.not_le_of_lt hs), answer_taken, hlinks, hgen]

/-- Settles O22: the first 8 records of the rising table from the start index on are the lowest, and none below the next
index is left out. -/
theorem listLinksWalksTheTable : Obligations.ListLinksWalksTheTable := by
  unfold Obligations.ListLinksWalksTheTable
  intro s a k ref start heard rising
  rw [exec_listLinks_heard heard]
  refine ⟨fun beyond => ?_, fun within => ?_⟩
  · rw [storeList_taken_beyond ref beyond]
  · rw [storeList_taken_within ref within]
    exact ⟨_, _, rfl, listedLinks_length_le, listedLinks_rising rising, fun e he => linkAt_of_mem_listedLinks rising he,
      fun e hfull hlast => nextIndex_of_full hfull hlast, nextIndex_of_lt,
      fun r hr hstart hnext => mem_listedLinks_of_lt_nextIndex rising hr hstart hnext⟩

end Sys2Proof.Machine
end

section
/-! THEOREM. COMPARE (R35): the classes of the 24-bit field and their values (R28, Table 2-1), and the answer on each pair of
classes. -/

namespace Sys2Proof.Machine

variable {a b f : IfField} {m c ma ca mb cb : Nat}

/-! ## The parts of a field (Table 10-1) -/

theorem figPad_eq_extractLsb' : figPad f = (f.extractLsb' 18 6).toNat := by
  have hf := f.isLt
  simp only [figPad, BitVec.extractLsb'_toNat, Nat.shiftRight_eq_div_pow]
  omega

theorem figMantissa_eq_extractLsb' : figMantissa f = (f.extractLsb' 6 12).toNat := by
  simp only [figMantissa, BitVec.extractLsb'_toNat, Nat.shiftRight_eq_div_pow]

theorem figCode_eq_extractLsb' : figCode f = (f.extractLsb' 0 6).toNat := by
  simp only [figCode, BitVec.extractLsb'_toNat, Nat.shiftRight_zero]

theorem figMantissa_lt : figMantissa f < 4096 := Nat.mod_lt _ (by decide)

/-! ## The class of a field (Table 2-1) -/

theorem figClass_eq_legal_iff :
    figClass f = .legal m c ↔ figPad f = 0 ∧ m = figMantissa f ∧ 2048 ≤ m ∧ c = figCode f := by
  unfold figClass
  split_ifs with hpad hnorm hzero
  · simp [hpad]
  · -- Pad bits 0 and the mantissa normal: the class carries the field's own parts.
    rw [FigClass.legal.injEq]
    constructor
    · rintro ⟨rfl, rfl⟩
      exact ⟨not_not.mp hpad, rfl, hnorm, rfl⟩
    · rintro ⟨-, hm, -, hc⟩
      exact ⟨hm.symm, hc.symm⟩
  all_goals
    -- A mantissa below 2048 is not normal, whatever the code.
    simp only [false_iff]
    rintro ⟨-, rfl, hm, -⟩
    exact hnorm hm

theorem figClass_eq_zero_iff : figClass f = .zero ↔ figPad f = 0 ∧ figMantissa f = 0 ∧ figCode f = 0 := by
  unfold figClass
  split_ifs with hpad hnorm hzero
  · simp [hpad]
  · simp only [false_iff]
    omega
  · simpa using ⟨not_not.mp hpad, hzero⟩
  · simp only [false_iff]
    exact fun h => hzero h.2

theorem figLegal_iff : figLegal f = true ↔ figClass f ≠ .illegal := by simp [figLegal]

/-- A figure is legal when its class is zero or legal nonzero (R28). -/
theorem figLegal_cases (h : figLegal f = true) : figClass f = .zero ∨ ∃ m c, figClass f = .legal m c := by
  cases hf : figClass f with
  | zero => exact .inl rfl
  | legal m c => exact .inr ⟨m, c, rfl⟩
  | illegal => exact absurd hf (figLegal_iff.mp h)

theorem figLegal_of_zero (h : figClass f = .zero) : figLegal f = true := by simp [figLegal, h]

theorem figLegal_of_legal (h : figClass f = .legal m c) : figLegal f = true := by simp [figLegal, h]

/-- The mantissa of a legal nonzero figure has its leading one at position 11 (R28). -/
theorem mantissa_bounds (h : figClass f = .legal m c) : 2048 ≤ m ∧ m < 4096 := by
  obtain ⟨-, rfl, hm, -⟩ := figClass_eq_legal_iff.mp h
  exact ⟨hm, figMantissa_lt⟩

/-! ## The value of a figure (R28) -/

theorem figValue_of_legal (h : figClass f = .legal m c) : figValue f = m * 2 ^ c := by
  obtain ⟨-, rfl, -, rfl⟩ := figClass_eq_legal_iff.mp h
  rw [figValue, if_pos (figLegal_of_legal h)]

theorem figValue_of_zero (h : figClass f = .zero) : figValue f = 0 := by
  obtain ⟨-, hm, -⟩ := figClass_eq_zero_iff.mp h
  rw [figValue, if_pos (figLegal_of_zero h), hm, Nat.zero_mul]

/-- Of two mantissas with the leading one in the same place, the one with the smaller exponent code has the smaller value. -/
theorem mantissa_mul_two_pow_lt (ha : ma < 4096) (hb : 2048 ≤ mb) (h : ca < cb) : ma * 2 ^ ca < mb * 2 ^ cb :=
  calc ma * 2 ^ ca < 4096 * 2 ^ ca := Nat.mul_lt_mul_of_pos_right ha (Nat.two_pow_pos ca)
    _ = 2048 * 2 ^ (ca + 1) := by rw [Nat.pow_succ]; omega
    _ ≤ mb * 2 ^ cb := Nat.mul_le_mul hb (Nat.pow_le_pow_right (by decide) h)

/-- R35's comparison of the pairs is the comparison of the values of legal nonzero figures. -/
theorem value_le_value_iff (ha : figClass a = .legal ma ca) (hb : figClass b = .legal mb cb) :
    ma * 2 ^ ca ≤ mb * 2 ^ cb ↔ ca < cb ∨ (ca = cb ∧ ma ≤ mb) := by
  obtain ⟨hma, hma'⟩ := mantissa_bounds ha
  obtain ⟨hmb, hmb'⟩ := mantissa_bounds hb
  rcases Nat.lt_trichotomy ca cb with hlt | rfl | hgt
  · simp [hlt, (mantissa_mul_two_pow_lt hma' hmb hlt).le]
  · simp [Nat.mul_le_mul_right_iff (Nat.two_pow_pos ca)]
  · simp [hgt.not_gt, hgt.ne', mantissa_mul_two_pow_lt hmb' hma hgt]

/-! ## The answer on each pair of classes (R35) -/

theorem figCompare_illegal_left (ha : figClass a = .illegal) : figCompare a b = false := by simp [figCompare, ha]

theorem figCompare_illegal_right (hb : figClass b = .illegal) : figCompare a b = false := by
  cases ha : figClass a <;> simp [figCompare, ha, hb]

/-- The answer is no for an illegal operand. -/
theorem figLegal_of_figCompare (h : figCompare a b = true) : figLegal a = true ∧ figLegal b = true := by
  refine ⟨figLegal_iff.mpr fun ha => ?_, figLegal_iff.mpr fun hb => ?_⟩
  · simp [figCompare_illegal_left ha] at h
  · simp [figCompare_illegal_right hb] at h

theorem figCompare_zero_left (ha : figClass a = .zero) (hb : figLegal b = true) : figCompare a b = true := by
  obtain hb | ⟨mb, cb, hb⟩ := figLegal_cases hb <;> simp [figCompare, ha, hb]

theorem figCompare_legal_zero (ha : figClass a = .legal ma ca) (hb : figClass b = .zero) : figCompare a b = false := by
  simp [figCompare, ha, hb]

theorem figCompare_legal_legal (ha : figClass a = .legal ma ca) (hb : figClass b = .legal mb cb) :
    figCompare a b = true ↔ ca < cb ∨ (ca = cb ∧ ma ≤ mb) := by
  simp [figCompare, ha, hb]

/-- The pairs that COMPARE answers yes to, as R35 lists them. -/
theorem figCompare_iff : figCompare a b = true ↔ figLegal a = true ∧ figLegal b = true ∧
    (figClass a = .zero ∨ ∃ ma ca mb cb, figClass a = .legal ma ca ∧ figClass b = .legal mb cb ∧
      (ca < cb ∨ (ca = cb ∧ ma ≤ mb))) := by
  constructor
  · intro h
    obtain ⟨hla, hlb⟩ := figLegal_of_figCompare h
    refine ⟨hla, hlb, ?_⟩
    obtain ha | ⟨ma, ca, ha⟩ := figLegal_cases hla
    · exact .inl ha
    · obtain hb | ⟨mb, cb, hb⟩ := figLegal_cases hlb
      · simp [figCompare_legal_zero ha hb] at h
      · exact .inr ⟨ma, ca, mb, cb, ha, hb, (figCompare_legal_legal ha hb).mp h⟩
  · rintro ⟨-, hlb, ha | ⟨ma, ca, mb, cb, ha, hb, h⟩⟩
    · exact figCompare_zero_left ha hlb
    · exact (figCompare_legal_legal ha hb).mpr h

/-- COMPARE of legal figures is the comparison of their values. -/
theorem figCompare_iff_figValue_le (hla : figLegal a = true) (hlb : figLegal b = true) :
    figCompare a b = true ↔ figValue a ≤ figValue b := by
  obtain ha | ⟨ma, ca, ha⟩ := figLegal_cases hla
  · simp [figCompare_zero_left ha hlb, figValue_of_zero ha]
  obtain hb | ⟨mb, cb, hb⟩ := figLegal_cases hlb
  · -- A nonzero figure is above zero.
    have hma : 0 < ma := Nat.lt_of_lt_of_le (by decide) (mantissa_bounds ha).1
    simp [figCompare_legal_zero ha hb, figValue_of_zero hb, figValue_of_legal ha, hma.ne']
  · rw [figCompare_legal_legal ha hb, figValue_of_legal ha, figValue_of_legal hb, value_le_value_iff ha hb]

/-- Settles O4: a mantissa with its leading one at position 11 makes the order of the pairs the order of the values. -/
theorem compareAgreesWithValues : Obligations.CompareAgreesWithValues := by
  unfold Obligations.CompareAgreesWithValues
  intro a b
  refine ⟨figCompare_iff, figCompare_iff_figValue_le, fun m c => ?_, ?_, figLegal_iff, fun m c => figValue_of_legal,
    figValue_of_zero⟩
  · rw [figClass_eq_legal_iff, figPad_eq_extractLsb', figMantissa_eq_extractLsb', figCode_eq_extractLsb', BitVec.toNat_eq]
    rfl
  · rw [figClass_eq_zero_iff, figPad_eq_extractLsb', figMantissa_eq_extractLsb', figCode_eq_extractLsb']
    simp only [BitVec.toNat_eq, BitVec.ofNat_eq_ofNat, BitVec.toNat_ofNat, Nat.zero_mod]

end Sys2Proof.Machine
end

section
/-! THEOREM. The replacement table of the search (R60): what `offerLabel` does where the frontier has no label for the node of
the offered one, and where it has one. -/

namespace Sys2Proof.Machine

variable {frontier l r : List Label} {x y : Label}

/-- Where the frontier has no label for the node, room alone decides. -/
theorem offerLabel_of_absent (habsent : ∀ y ∈ frontier, y.node ≠ x.node) :
    offerLabel frontier x = if frontier.length < Config.searchCapacity then frontier ++ [x] else frontier := by
  have hfind : (frontier.find? fun y => y.node = x.node) = none := List.find?_eq_none.mpr (by simpa using habsent)
  rw [offerLabel, hfind]

/-- Putting `x` in the place of each label for its node leaves a list without such a label as it is. -/
theorem map_replace_of_absent (habsent : ∀ y ∈ l, y.node ≠ x.node) : (l.map fun y => if y.node = x.node then x else y) = l :=
  (List.map_congr_left fun y hy => if_neg (habsent y hy)).trans (List.map_id' l)

/-- Where `y` is the frontier's one label for the node, cost and then hops decide whether `x` takes its place. -/
theorem offerLabel_of_present (hnode : y.node = x.node) (hl : ∀ z ∈ l, z.node ≠ x.node) (hr : ∀ z ∈ r, z.node ≠ x.node) :
    offerLabel (l ++ y :: r) x =
      if x.cost < y.cost ∨ x.cost = y.cost ∧ x.hops < y.hops then l ++ x :: r else l ++ y :: r := by
  have hfind : ((l ++ y :: r).find? fun z => z.node = x.node) = some y :=
    List.find?_eq_some_iff_append.mpr ⟨by simpa using hnode, l, r, rfl, by simpa using hl⟩
  have hmap : ((l ++ y :: r).map fun z => if z.node = x.node then x else z) = l ++ x :: r := by
    rw [List.map_append, List.map_cons, map_replace_of_absent hl, map_replace_of_absent hr, if_pos hnode]
  simp only [offerLabel, hfind, hmap]

/-- Settles O30: each row of R60 is a branch of one of the two tests above. -/
theorem frontierKeepsTheCheapestLabel : Obligations.FrontierKeepsTheCheapestLabel := by
  unfold Obligations.FrontierKeepsTheCheapestLabel
  intro frontier x
  refine ⟨fun habsent hroom => ?_, fun habsent hfull => ?_, ?_⟩
  · exact (offerLabel_of_absent habsent).trans (if_pos hroom)
  · exact (offerLabel_of_absent habsent).trans (if_neg hfull.not_gt)
  · rintro l r y rfl hnode hothers
    obtain ⟨hl, hr⟩ := List.forall_mem_append.mp hothers
    rw [offerLabel_of_present hnode hl hr]
    exact ⟨fun hcost => if_pos (.inl hcost), fun hcost hhops => if_pos (.inr ⟨hcost, hhops⟩),
      fun hcost hhops => if_neg (by omega), fun hcost => if_neg (by omega)⟩

end Sys2Proof.Machine
end

section
/-! THEOREM. LOAD COUNTER (R144): the degree and the counter a command names, its answer and its effect; and the increase of a
counter from the value that stands (R143). -/

namespace Sys2Proof.Machine

variable {s : State} {a : AgentId} {k : SlotNo} {d : DegreeNo} {b c : Byte}

/-! ## The degree and the counter a command names (R155, Table 10-7) -/

theorem degreeOf_eq_some_iff : degreeOf b = some d ↔ b.toNat = d := by
  unfold degreeOf
  split_ifs with hb
  · rw [Option.some.injEq, Fin.ext_iff]
  · simp only [false_iff]
    omega

theorem degreeOf_eq_none_iff : degreeOf b = none ↔ 7 < b.toNat := by
  unfold degreeOf
  split_ifs with hb
  · simp only [false_iff]
    omega
  · simp only [true_iff]
    omega

/-- Each counter is named by its own byte. -/
theorem counterNamed_counterByte (n : CounterName) : counterNamed (counterByte n) = some n := by
  cases n <;> rfl

/-- The bytes 0, 1 and 2 name a counter, so a greater one names none. -/
theorem counterNamed_eq_none (hc : 2 < c.toNat) : counterNamed c = none := by
  unfold counterNamed
  split_ifs with h0 h1 h2
  · exact absurd hc (by rw [h0]; decide)
  · exact absurd hc (by rw [h1]; decide)
  · exact absurd hc (by rw [h2]; decide)
  · rfl

/-! ## The answer and the effect (R144) -/

/-- A LOAD COUNTER that is heard reaches its degree controller with its kind, 15. -/
theorem exec_loadCounter_heard (h : Heard s a k) (ref : BitVec 16) (b c v : Byte) :
    exec (.loadCounter a ref b c v) s = .next (degreeLoadCounter ⟨a, k, ref, 15⟩ b c v (taken a k ref 15 s)) :=
  send_heard h ref (.loadCounter b c v) rfl

/-- An unlisted degree or counter is answered BAD_FIELD. -/
theorem degreeLoadCounter_unlisted (t : Ticket) (v : Byte) (h : degreeOf b = none ∨ counterNamed c = none) :
    degreeLoadCounter t b c v s = answer t .badField .empty s := by
  unfold degreeLoadCounter
  split
  case h_1 hd hc => simp [hd, hc] at h
  case h_2 => rfl

/-- A listed counter takes the value and OK is answered. -/
theorem degreeLoadCounter_listed (t : Ticket) (v : Byte) (hd : degreeOf b = some d) (n : CounterName) :
    degreeLoadCounter t b (counterByte n) v s =
      (answer t .ok .empty s).setDegree d (setCounter (s.degree d) n v) := by
  simp only [degreeLoadCounter, hd, counterNamed_counterByte]
  rfl

theorem exec_loadCounter_unlisted (h : Heard s a k) (ref : BitVec 16) (v : Byte) (hbad : 7 < b.toNat ∨ 2 < c.toNat) :
    exec (.loadCounter a ref b c v) s = .next (replied a k ⟨ref, 15, .badField, .empty⟩ s) := by
  have hnone : degreeOf b = none ∨ counterNamed c = none := hbad.imp degreeOf_eq_none_iff.mpr counterNamed_eq_none
  rw [exec_loadCounter_heard h, degreeLoadCounter_unlisted _ v hnone, answer_taken]

theorem exec_loadCounter_listed (h : Heard s a k) (ref : BitVec 16) (v : Byte) (hb : b.toNat = d) (n : CounterName) :
    exec (.loadCounter a ref b (counterByte n) v) s =
      .next ((replied a k ⟨ref, 15, .ok, .empty⟩ s).setDegree d (setCounter (s.degree d) n v)) := by
  have hdegree : (taken a k ref 15 s).degree d = s.degree d := rfl
  rw [exec_loadCounter_heard h, degreeLoadCounter_listed _ v (degreeOf_eq_some_iff.mpr hb), answer_taken, hdegree]

/-! ## An increase (R143) -/

theorem countUp_of_ne (n : CounterName) (h : counterOf (s.degree d) n ≠ 255) :
    countUp d n s = s.setDegree d (setCounter (s.degree d) n (counterOf (s.degree d) n + 1)) := by
  rw [countUp_cases, if_neg h]

/-- From 255 a counter wraps to 0. -/
theorem countUp_of_eq (n : CounterName) (h : counterOf (s.degree d) n = 255) :
    countUp d n s = offerAll (.counterWrap d n) (s.setDegree d (setCounter (s.degree d) n 0)) := by
  have hwrap : (255 : BitVec 8) + 1 = 0 := rfl
  rw [countUp_cases, if_pos h, h, hwrap]

/-- Settles O43: each listed code is the byte of one counter, and an increase goes by the value that stands. -/
theorem loadCounterPresetsTheCounter : Obligations.LoadCounterPresetsTheCounter := by
  unfold Obligations.LoadCounterPresetsTheCounter
  intro s a k ref b c v heard
  refine ⟨exec_loadCounter_unlisted heard ref v, fun d hb => ⟨?_, ?_, ?_⟩, fun t d n => ⟨countUp_of_ne n, countUp_of_eq n⟩⟩
  · rintro rfl
    exact exec_loadCounter_listed heard ref v hb .probeTimeouts
  · rintro rfl
    exact exec_loadCounter_listed heard ref v hb .erroredAnswers
  · rintro rfl
    exact exec_loadCounter_listed heard ref v hb .carrierDrops

end Sys2Proof.Machine
end
